-- ==== Sys2Proof/Word.lean ====
section
/-! DEFINITION. The plain types every layer uses: bytes, payloads, levels, times, and a saturating count. -/

namespace Sys2Proof

/-- One byte on the serial link. -/
abbrev Byte := BitVec 8

/-- A frame's payload: 0 to 120 bytes in the order sent (00_scope, R195). -/
abbrev Payload := List Byte

/-- A timebase value or a count of ticks. The spec gives times 48 bits; the bound 2^48 - 1 is a
law of the machine (R13, R24), not of the type, because a sum "may exceed" it before it is
checked (R106) and a pulse end may stand above it (R46). -/
abbrev Time := Nat

/-- A moment on the part's own time reference, in microseconds (00_scope, Times). The spec counts
some durations in microseconds and some in milliseconds of the same reference. -/
abbrev Moment := Nat

/-- A label that is present: 1..65,535 (00_scope, Label). Absence is `none`, never 0. -/
abbrev Label := BitVec 16

/-- A signal level (00_scope, Levels). -/
inductive Level where
  | low
  | high
deriving DecidableEq, Repr

/-- The opposite level (R46, active level; R50, TOGGLE). -/
def Level.flip : Level → Level
  | .low => .high
  | .high => .low

/-- A counter that "stays at" its largest value once there. -/
def satInc {w : Nat} (x : BitVec w) : BitVec w :=
  if x = BitVec.allOnes w then x else x + 1

/-- Applies one function to every place of a fixed family (eight lines, four inputs). -/
def mapAll {α β : Type} {n : Nat} (f : α → β) (v : Vector α n) : Vector β n :=
  ⟨⟨v.toList.map f⟩, by simp⟩

end Sys2Proof
end

