-- ==== Sys2Proof/Config.lean ====
section
/-! DEFINITION. The principal figures of the part (00_scope, Principal figures): what this
implementation fixes. The spec leaves no result of a command undefined, so there is no free value
here; what the outside world chooses (pin levels, the level an analog input stands at) is an operand
of the step that reads it. -/

namespace Sys2Proof.Config

/-- The last timebase value, 2^48 - 1 (R2, R13). -/
def maxTime : Nat := 2 ^ 48 - 1

/-- Capacity of the Notice Queue (R146). -/
def noticeCapacity : Nat := 32

/-- Capacity of the Stamp Queue (R122). -/
def stampCapacity : Nat := 128

/-- The largest number of reports in the window (R132, R133). -/
def windowCapacity : Nat := 4

/-- Capacity of the command queue (R158). -/
def commandCapacity : Nat := 4

/-- Capacity of the await list (R158). -/
def awaitCapacity : Nat := 8

/-- The largest payload of a frame, in bytes (R182). -/
def maxPayload : Nat := 120

/-- Microseconds in one millisecond: both units are read on one reference (00_scope, Times). -/
def microsPerMilli : Nat := 1000

/-- Length of a conversion, 10 µs (R92). -/
def conversionMicros : Nat := 10

/-- Length of a recovery, 3 µs (R96). -/
def recoveryMicros : Nat := 3

/-- The inter-byte gap limit, 5 ms (R184). -/
def gapMicros : Nat := 5 * microsPerMilli

/-- The part code HELLO carries (R170). -/
def partCode : Nat := 4808

/-- The revision HELLO carries (R170). -/
def revision : Nat := 1

end Sys2Proof.Config
end

