-- ==== Sys2Proof/Syntax.lean ====
section
/-! DEFINITION. The commands of the part: one constructor per row of spec/opcode_table.json, in the
table's order.

A constructor of a HOST COMMAND stands for the interpreter executing the oldest command of the
command queue (R164), which is that command with those payload fields. The fields are the request
payload's, at the widths R196 gives them and unchecked, so that a field out of range can be stated
and is answered as the command's rule says; its last field is how far the step carries the execution,
to the reply where it is not written.
A constructor of an EVENT stands for the part taking that event whole. A level that a step reads from
an input pin is an operand of that step. -/

namespace Sys2Proof

/-- The 15 bytes of a trigger's template, and the same fields of a SCHEDULE (R196, TRIGGER). -/
structure TemplateFields where
  kind : Byte
  target : Byte
  width : BitVec 16
  period : BitVec 32
  count : BitVec 16
  report : Byte
  n : Byte
  late : Byte
  label : BitVec 16
deriving DecidableEq, Repr

/-- The request payload of SCHEDULE: the action's fields with the due mode and value (R23, R196). -/
structure ScheduleFields where
  action : TemplateFields
  dueMode : Byte
  dueValue : BitVec 48
deriving DecidableEq, Repr

/-- The request payload of CHANNEL (R81, R196). -/
structure ChannelFields where
  channel : Byte
  mode : Byte
  edge : Byte
  divisor : Byte
  filter : Byte
  queue : Byte
deriving DecidableEq, Repr

/-- The request payload of TRIGGER (R114, R196). -/
structure TriggerFields where
  slot : Byte
  sourceKind : Byte
  sourceNumber : Byte
  sourceZone : Byte
  sourceLabel : BitVec 16
  shots : Byte
  delay : BitVec 32
  limit : Byte
  atLimit : Byte
  template : TemplateFields
deriving DecidableEq, Repr

/-- The request payload of STREAM (R127, R196). -/
structure StreamFields where
  enable : Byte
  batch : Byte
  hold : Byte
  interval : BitVec 16
  retryLimit : Byte
deriving DecidableEq, Repr

/-- One character of RXD as the receiver samples it (R180): whether the line has stood HIGH at some
time since the character before it ended, or, for the first one after a device reset, since that reset
was over; the level at the middle of the start bit; the eight data bits as sampled (bit 0 first on the
line); and the level at the middle of the stop bit. -/
structure RxChar where
  rose : Bool
  startMid : Level
  data : Byte
  stop : Level
deriving DecidableEq, Repr

/-- A block that offers stamp entries: it makes its offers in an order of its own (R123). -/
inductive StampBlock where
  | channel (n : Fin 8)
  | sampler
deriving DecidableEq, Repr

/-- A block that offers source events (R104). -/
inductive EventBlock where
  | channel (n : Fin 8)
  | sampler
  | actionTable
deriving DecidableEq, Repr

/-- The source events that the Trigger Table takes at one firing of a tick (R113), each named by its
block: before the record leaves the table, or is re-timed, and after that. -/
structure TakenEvents where
  before : List EventBlock
  after : List EventBlock
deriving DecidableEq, Repr

/-- None are taken. -/
def TakenEvents.none : TakenEvents := ⟨[], []⟩

/-- How far one step carries the execution of the oldest command: the interpreter works through a
command in claims, and other happenings may fall between two of them (R164, R171). `oneClaim` is
the next claim alone: what the command's rule does, one of STATUS's readings, or the filling of a
reply already made. `toReply` is every claim that is left, with nothing between them. -/
inductive Extent where
  | oneClaim
  | toReply
deriving DecidableEq, Repr

/-- The commands and events of the part, one per row of the table. -/
inductive Instr where
  /-- HELLO (R170). -/
  | hello (go : Extent := .toReply)
  /-- STATUS (R171). -/
  | status (go : Extent := .toReply)
  /-- RESET option (R172, R173). -/
  | reset (option : Byte) (go : Extent := .toReply)
  /-- CLOCK source, prescaler (R7). -/
  | clock (source prescaler : Byte) (go : Extent := .toReply)
  /-- SET_TIME value (R8). -/
  | setTime (value : BitVec 48) (go : Extent := .toReply)
  /-- START, with the level the GATE pin stands at (R9). -/
  | start (gatePin : Level) (go : Extent := .toReply)
  /-- STOP (R11). -/
  | stop (go : Extent := .toReply)
  /-- GATE gating, polarity, with the level the GATE pin stands at (R6). -/
  | gate (gating polarity : Byte) (gatePin : Level) (go : Extent := .toReply)
  /-- GET_TIME (R12). -/
  | getTime (go : Extent := .toReply)
  /-- SCHEDULE (R23 to R27). -/
  | schedule (f : ScheduleFields) (go : Extent := .toReply)
  /-- CANCEL handle (R39). -/
  | cancel (gen slot : Byte) (go : Extent := .toReply)
  /-- CANCEL_LINE line, release (R40). -/
  | cancelLine (line release : Byte) (go : Extent := .toReply)
  /-- LIST_ACTIONS position (R41). -/
  | listActions (position : Byte) (go : Extent := .toReply)
  /-- AWAIT handle, timeout in ms (R166). -/
  | await (gen slot : Byte) (timeout : BitVec 16) (go : Extent := .toReply)
  /-- LINE line, mode, idle level (R57). -/
  | line (line mode idle : Byte) (go : Extent := .toReply)
  /-- DRIVE line, level (R59). -/
  | drive (line level : Byte) (go : Extent := .toReply)
  /-- LINE_STATUS (R60). -/
  | lineStatus (go : Extent := .toReply)
  /-- CHANNEL, with the level its IN pin stands at (R81, R82, R72). -/
  | channel (f : ChannelFields) (pin : Level) (go : Extent := .toReply)
  /-- CHANNEL_OFF channel (R83). -/
  | channelOff (channel : Byte) (go : Extent := .toReply)
  /-- CHANNEL_STATUS channel (R84). -/
  | channelStatus (channel : Byte) (go : Extent := .toReply)
  /-- SAMPLER enable, acquisition time (R95). -/
  | sampler (enable acquisition : Byte) (go : Extent := .toReply)
  /-- WINDOW input, low, high, queue enable (R98). -/
  | window (input : Byte) (low high : BitVec 16) (queue : Byte) (go : Extent := .toReply)
  /-- TRIGGER slot, definition (R114). -/
  | trigger (f : TriggerFields) (go : Extent := .toReply)
  /-- TRIGGER_ARM slot, target state (R115). -/
  | triggerArm (slot target : Byte) (go : Extent := .toReply)
  /-- TRIGGER_CLEAR slot, disposal (R116). -/
  | triggerClear (slot disposal : Byte) (go : Extent := .toReply)
  /-- TRIGGER_STATUS slot (R117). -/
  | triggerStatus (slot : Byte) (go : Extent := .toReply)
  /-- STREAM (R127). -/
  | stream (f : StreamFields) (go : Extent := .toReply)
  /-- READ n (R130). -/
  | read (n : Byte) (go : Extent := .toReply)
  /-- RELEASE n (R131). -/
  | release (n : Byte) (go : Extent := .toReply)
  /-- ACK: the report stream takes the oldest acknowledgement handed to it (R140, R141). -/
  | ack (sequence : Byte)
  /-- A source period that completes a tick-clock period, with the GATE pin's level (R1, R5) and, when
  it is a tick, the source events that the Trigger Table takes at each firing in turn (R113). -/
  | tickClockPeriod (gatePin : Level) (taken : List TakenEvents := [])
  /-- One channel's sample at a tick-clock period, with its IN pin's level (R68, R69). -/
  | channelSample (n : Fin 8) (pin : Level)
  /-- The Stamp Queue takes the oldest offer of one block (R123, R124). -/
  | stampOffer (block : StampBlock)
  /-- The Trigger Table takes the oldest source event of one block (R104). -/
  | triggerSourceEvent (block : EventBlock)
  /-- The Action Table takes the Trigger Table's plain admission request (R28). -/
  | triggerAdmissionRequest
  /-- The Action Table takes the Trigger Table's replacement request (R29). -/
  | replacementAdmission
  /-- The Action Table takes one cancel request of a TRIGGER_CLEAR with CANCEL (R39, R116). -/
  | triggerCancelRequest (go : Extent := .toReply)
  /-- The acquisition time has passed; the level then held, as the result it converts to (R92). -/
  | endOfAcquisition (level : BitVec 12)
  /-- The 10 µs of a conversion have passed (R92). -/
  | endOfConversion
  /-- The recovery end is reached (R97). -/
  | recoveryEnd
  /-- The oldest WAITING entry's age reaches the hold (R132). -/
  | holdTimeReached
  /-- The retransmit timer expires (R137, R139). -/
  | retransmitExpiry
  /-- The character that is a frame's CRC_LO byte (R186). -/
  | frameReceived (c : RxChar)
  /-- The character that is a LEN byte above 120 (R183). -/
  | lengthError (c : RxChar)
  /-- The inter-byte gap runs out (R184). -/
  | gapExpiry
  /-- The frame under way on TXD has been sent (R190). -/
  | endOfTransmission
  /-- The timeout of the await entry with this tag expires (R169). -/
  | awaitTimeout (tag : Byte)
  /-- The pending soft reset applies (R175). -/
  | resetApplies
  /-- Power-on completes, with the levels of the rate straps (R176, R179, R193). -/
  | powerOn (rate1 rate0 : Level)
  /-- The RESET pin becomes active (R176, R193). -/
  | resetPin
  /-- The RESET pin is released, with the levels of the rate straps (R150, R179, R193). -/
  | resetPinRelease (rate1 rate0 : Level)
  /-- One character time of idle TXD after a device reset has passed (R193). -/
  | postResetIdleEnd
  /-- A character on RXD is taken by the receive machine (R180, R182). -/
  | byteTaken (c : RxChar)
  /-- A source period that completes no tick-clock period (R1). -/
  | sourcePeriod
deriving DecidableEq, Repr

end Sys2Proof
end

