-- ==== Sys2Proof/Decode.lean ====
section
/-! DEFINITION. The part has no instruction words: spec/opcode_table.json gives no row any bits, so
`decodeTableWord` answers none for every word. What the part does read from bytes is the frame of a
host command (R195, R196). This file holds the kind codes, the layout of every request payload
(`frameOf`, the encoder) and its reading (`commandOf`, the decoder). -/

namespace Sys2Proof

/-- `be n x`: the number x in n bytes, most significant byte first (R195, Width and order). -/
def be : Nat → Nat → Payload
  | 0, _ => []
  | n + 1, x => BitVec.ofNat 8 (x / 256 ^ n) :: be n x

/-- The number that bytes write, most significant byte first (R195). -/
def unbe (p : Payload) : Nat := p.foldl (fun a b => a * 256 + b.toNat) 0

/-- The byte at one place of a payload. -/
def byteAt (i : Nat) (p : Payload) : Byte := p.getD i 0

/-- The number written by n bytes from one place of a payload. -/
def numAt (i n : Nat) (p : Payload) : Nat := unbe ((p.drop i).take n)

/-! ## Kind codes (R196, section 11.4) -/

/-- HELLO 0x01. -/
def kindHello : Byte := 0x01
/-- STATUS 0x02. -/
def kindStatus : Byte := 0x02
/-- RESET 0x03. -/
def kindReset : Byte := 0x03
/-- CLOCK 0x08. -/
def kindClock : Byte := 0x08
/-- SET_TIME 0x09. -/
def kindSetTime : Byte := 0x09
/-- START 0x0A. -/
def kindStart : Byte := 0x0A
/-- STOP 0x0B. -/
def kindStop : Byte := 0x0B
/-- GATE 0x0C. -/
def kindGate : Byte := 0x0C
/-- GET_TIME 0x0D. -/
def kindGetTime : Byte := 0x0D
/-- SCHEDULE 0x10. -/
def kindSchedule : Byte := 0x10
/-- CANCEL 0x11. -/
def kindCancel : Byte := 0x11
/-- CANCEL_LINE 0x12. -/
def kindCancelLine : Byte := 0x12
/-- LIST_ACTIONS 0x13. -/
def kindListActions : Byte := 0x13
/-- AWAIT 0x14. -/
def kindAwait : Byte := 0x14
/-- LINE 0x18. -/
def kindLine : Byte := 0x18
/-- DRIVE 0x19. -/
def kindDrive : Byte := 0x19
/-- LINE_STATUS 0x1A. -/
def kindLineStatus : Byte := 0x1A
/-- CHANNEL 0x20. -/
def kindChannel : Byte := 0x20
/-- CHANNEL_OFF 0x21. -/
def kindChannelOff : Byte := 0x21
/-- CHANNEL_STATUS 0x22. -/
def kindChannelStatus : Byte := 0x22
/-- SAMPLER 0x28. -/
def kindSampler : Byte := 0x28
/-- WINDOW 0x29. -/
def kindWindow : Byte := 0x29
/-- TRIGGER 0x30. -/
def kindTrigger : Byte := 0x30
/-- TRIGGER_ARM 0x31. -/
def kindTriggerArm : Byte := 0x31
/-- TRIGGER_CLEAR 0x32. -/
def kindTriggerClear : Byte := 0x32
/-- TRIGGER_STATUS 0x33. -/
def kindTriggerStatus : Byte := 0x33
/-- STREAM 0x38. -/
def kindStream : Byte := 0x38
/-- READ 0x39. -/
def kindRead : Byte := 0x39
/-- RELEASE 0x3A. -/
def kindRelease : Byte := 0x3A
/-- ACK 0x3F (R196): link control, not a command of the command queue. -/
def kindAck : Byte := 0x3F
/-- NOTICE 0xF0, the part's own (R188, R199). -/
def kindNotice : Byte := 0xF0
/-- STAMPS 0xF1, the part's own (R188, R198). -/
def kindStamps : Byte := 0xF1

/-- The kinds that the command queue takes: the kind table without ACK (R160, R196). -/
def commandKinds : List Byte :=
  [kindHello, kindStatus, kindReset, kindClock, kindSetTime, kindStart, kindStop, kindGate,
   kindGetTime, kindSchedule, kindCancel, kindCancelLine, kindListActions, kindAwait, kindLine,
   kindDrive, kindLineStatus, kindChannel, kindChannelOff, kindChannelStatus, kindSampler,
   kindWindow, kindTrigger, kindTriggerArm, kindTriggerClear, kindTriggerStatus, kindStream,
   kindRead, kindRelease]

/-! ## Request payloads (R196, section 11.4) -/

/-- A template's 15 bytes (R196, TRIGGER). -/
def templatePayload (f : TemplateFields) : Payload :=
  [f.kind, f.target] ++ be 2 f.width.toNat ++ be 4 f.period.toNat ++ be 2 f.count.toNat
    ++ [f.report, f.n, f.late] ++ be 2 f.label.toNat

/-- SCHEDULE's 22 bytes. -/
def schedulePayload (f : ScheduleFields) : Payload :=
  [f.action.kind, f.action.target] ++ be 2 f.action.width.toNat ++ [f.dueMode]
    ++ be 6 f.dueValue.toNat ++ be 4 f.action.period.toNat ++ be 2 f.action.count.toNat
    ++ [f.action.report, f.action.n, f.action.late] ++ be 2 f.action.label.toNat

/-- CHANNEL's 6 bytes. -/
def channelPayload (f : ChannelFields) : Payload :=
  [f.channel, f.mode, f.edge, f.divisor, f.filter, f.queue]

/-- WINDOW's 6 bytes. -/
def windowPayload (input : Byte) (low high : BitVec 16) (queue : Byte) : Payload :=
  [input] ++ be 2 low.toNat ++ be 2 high.toNat ++ [queue]

/-- TRIGGER's 28 bytes. -/
def triggerPayload (f : TriggerFields) : Payload :=
  [f.slot, f.sourceKind, f.sourceNumber, f.sourceZone] ++ be 2 f.sourceLabel.toNat ++ [f.shots]
    ++ be 4 f.delay.toNat ++ [f.limit, f.atLimit] ++ templatePayload f.template

/-- STREAM's 6 bytes. -/
def streamPayload (f : StreamFields) : Payload :=
  [f.enable, f.batch, f.hold] ++ be 2 f.interval.toNat ++ [f.retryLimit]

/-- The kind and request payload of the frame that carries a host command; none for an event of
the part (R196). -/
def frameOf : Instr → Option (Byte × Payload)
  | .hello _ => some (kindHello, [])
  | .status _ => some (kindStatus, [])
  | .reset option _ => some (kindReset, [option])
  | .clock source prescaler _ => some (kindClock, [source, prescaler])
  | .setTime value _ => some (kindSetTime, be 6 value.toNat)
  | .start _ _ => some (kindStart, [])
  | .stop _ => some (kindStop, [])
  | .gate gating polarity _ _ => some (kindGate, [gating, polarity])
  | .getTime _ => some (kindGetTime, [])
  | .schedule f _ => some (kindSchedule, schedulePayload f)
  | .cancel gen slot _ => some (kindCancel, [gen, slot])
  | .cancelLine line release _ => some (kindCancelLine, [line, release])
  | .listActions position _ => some (kindListActions, [position])
  | .await gen slot timeout _ => some (kindAwait, [gen, slot] ++ be 2 timeout.toNat)
  | .line line mode idle _ => some (kindLine, [line, mode, idle])
  | .drive line level _ => some (kindDrive, [line, level])
  | .lineStatus _ => some (kindLineStatus, [])
  | .channel f _ _ => some (kindChannel, channelPayload f)
  | .channelOff channel _ => some (kindChannelOff, [channel])
  | .channelStatus channel _ => some (kindChannelStatus, [channel])
  | .sampler enable acquisition _ => some (kindSampler, [enable, acquisition])
  | .window input low high queue _ => some (kindWindow, windowPayload input low high queue)
  | .trigger f _ => some (kindTrigger, triggerPayload f)
  | .triggerArm slot target _ => some (kindTriggerArm, [slot, target])
  | .triggerClear slot disposal _ => some (kindTriggerClear, [slot, disposal])
  | .triggerStatus slot _ => some (kindTriggerStatus, [slot])
  | .stream f _ => some (kindStream, streamPayload f)
  | .read n _ => some (kindRead, [n])
  | .release n _ => some (kindRelease, [n])
  | .ack sequence => some (kindAck, [sequence])
  | .tickClockPeriod _ _ | .channelSample _ _ | .stampOffer _ | .triggerSourceEvent _
  | .triggerAdmissionRequest | .replacementAdmission | .triggerCancelRequest _
  | .endOfAcquisition _ | .endOfConversion | .recoveryEnd | .holdTimeReached | .retransmitExpiry
  | .frameReceived _ | .lengthError _ | .gapExpiry | .endOfTransmission | .awaitTimeout _
  | .resetApplies | .powerOn _ _ | .resetPin | .resetPinRelease _ _ | .postResetIdleEnd
  | .byteTaken _ | .sourcePeriod => none

/-- How far a step of a host command, or of a cancel request, carries the command's execution; none
for every other event of the part. -/
def extentOf : Instr → Option Extent
  | .hello go | .status go | .reset _ go | .clock _ _ go | .setTime _ go | .start _ go | .stop go
  | .gate _ _ _ go | .getTime go | .schedule _ go | .cancel _ _ go | .cancelLine _ _ go
  | .listActions _ go | .await _ _ _ go | .line _ _ _ go | .drive _ _ go | .lineStatus go
  | .channel _ _ go | .channelOff _ go | .channelStatus _ go | .sampler _ _ go
  | .window _ _ _ _ go | .trigger _ go | .triggerArm _ _ go | .triggerClear _ _ go
  | .triggerStatus _ go | .stream _ go | .read _ go | .release _ go | .triggerCancelRequest go =>
      some go
  | .ack _ | .tickClockPeriod _ _ | .channelSample _ _ | .stampOffer _ | .triggerSourceEvent _
  | .triggerAdmissionRequest | .replacementAdmission
  | .endOfAcquisition _ | .endOfConversion | .recoveryEnd | .holdTimeReached | .retransmitExpiry
  | .frameReceived _ | .lengthError _ | .gapExpiry | .endOfTransmission | .awaitTimeout _
  | .resetApplies | .powerOn _ _ | .resetPin | .resetPinRelease _ _ | .postResetIdleEnd
  | .byteTaken _ | .sourcePeriod => none

/-! ## Reading a request payload -/

/-- The template that 15 bytes from one place of a payload write. -/
def readTemplate (i : Nat) (p : Payload) : TemplateFields where
  kind := byteAt i p
  target := byteAt (i + 1) p
  width := BitVec.ofNat 16 (numAt (i + 2) 2 p)
  period := BitVec.ofNat 32 (numAt (i + 4) 4 p)
  count := BitVec.ofNat 16 (numAt (i + 8) 2 p)
  report := byteAt (i + 10) p
  n := byteAt (i + 11) p
  late := byteAt (i + 12) p
  label := BitVec.ofNat 16 (numAt (i + 13) 2 p)

/-- The fields that SCHEDULE's 22 bytes write. -/
def readSchedule (p : Payload) : ScheduleFields where
  action :=
    { kind := byteAt 0 p, target := byteAt 1 p, width := BitVec.ofNat 16 (numAt 2 2 p)
      period := BitVec.ofNat 32 (numAt 11 4 p), count := BitVec.ofNat 16 (numAt 15 2 p)
      report := byteAt 17 p, n := byteAt 18 p, late := byteAt 19 p
      label := BitVec.ofNat 16 (numAt 20 2 p) }
  dueMode := byteAt 4 p
  dueValue := BitVec.ofNat 48 (numAt 5 6 p)

/-- The fields that TRIGGER's 28 bytes write. -/
def readTrigger (p : Payload) : TriggerFields where
  slot := byteAt 0 p
  sourceKind := byteAt 1 p
  sourceNumber := byteAt 2 p
  sourceZone := byteAt 3 p
  sourceLabel := BitVec.ofNat 16 (numAt 4 2 p)
  shots := byteAt 6 p
  delay := BitVec.ofNat 32 (numAt 7 4 p)
  limit := byteAt 11 p
  atLimit := byteAt 12 p
  template := readTemplate 13 p

/-- The payload length of each kind (R196: "The lengths are exact"); none for a kind of no host
frame. -/
def lengthOf (kind : Byte) : Option Nat :=
  if kind = kindHello ∨ kind = kindStatus ∨ kind = kindStart ∨ kind = kindStop
      ∨ kind = kindGetTime ∨ kind = kindLineStatus then some 0
  else if kind = kindReset ∨ kind = kindListActions ∨ kind = kindChannelOff
      ∨ kind = kindChannelStatus ∨ kind = kindTriggerStatus ∨ kind = kindRead
      ∨ kind = kindRelease ∨ kind = kindAck then some 1
  else if kind = kindClock ∨ kind = kindGate ∨ kind = kindCancel ∨ kind = kindCancelLine
      ∨ kind = kindDrive ∨ kind = kindSampler ∨ kind = kindTriggerArm
      ∨ kind = kindTriggerClear then some 2
  else if kind = kindLine then some 3
  else if kind = kindAwait then some 4
  else if kind = kindSetTime ∨ kind = kindChannel ∨ kind = kindWindow ∨ kind = kindStream then
    some 6
  else if kind = kindSchedule then some 22
  else if kind = kindTrigger then some 28
  else none

/-- The command that a frame of this kind with a payload of its kind's length carries, when the
interpreter executes it this far with the GATE pin and the addressed IN pin at these levels. -/
def commandFields (gatePin inPin : Level) (go : Extent) (kind : Byte) (p : Payload) :
    Option Instr :=
  let b := fun i => byteAt i p
  if kind = kindHello then some (.hello go)
  else if kind = kindStatus then some (.status go)
  else if kind = kindReset then some (.reset (b 0) go)
  else if kind = kindClock then some (.clock (b 0) (b 1) go)
  else if kind = kindSetTime then some (.setTime (BitVec.ofNat 48 (numAt 0 6 p)) go)
  else if kind = kindStart then some (.start gatePin go)
  else if kind = kindStop then some (.stop go)
  else if kind = kindGate then some (.gate (b 0) (b 1) gatePin go)
  else if kind = kindGetTime then some (.getTime go)
  else if kind = kindSchedule then some (.schedule (readSchedule p) go)
  else if kind = kindCancel then some (.cancel (b 0) (b 1) go)
  else if kind = kindCancelLine then some (.cancelLine (b 0) (b 1) go)
  else if kind = kindListActions then some (.listActions (b 0) go)
  else if kind = kindAwait then some (.await (b 0) (b 1) (BitVec.ofNat 16 (numAt 2 2 p)) go)
  else if kind = kindLine then some (.line (b 0) (b 1) (b 2) go)
  else if kind = kindDrive then some (.drive (b 0) (b 1) go)
  else if kind = kindLineStatus then some (.lineStatus go)
  else if kind = kindChannel then some (.channel ⟨b 0, b 1, b 2, b 3, b 4, b 5⟩ inPin go)
  else if kind = kindChannelOff then some (.channelOff (b 0) go)
  else if kind = kindChannelStatus then some (.channelStatus (b 0) go)
  else if kind = kindSampler then some (.sampler (b 0) (b 1) go)
  else if kind = kindWindow then
    some (.window (b 0) (BitVec.ofNat 16 (numAt 1 2 p)) (BitVec.ofNat 16 (numAt 3 2 p)) (b 5) go)
  else if kind = kindTrigger then some (.trigger (readTrigger p) go)
  else if kind = kindTriggerArm then some (.triggerArm (b 0) (b 1) go)
  else if kind = kindTriggerClear then some (.triggerClear (b 0) (b 1) go)
  else if kind = kindTriggerStatus then some (.triggerStatus (b 0) go)
  else if kind = kindStream then
    some (.stream ⟨b 0, b 1, b 2, BitVec.ofNat 16 (numAt 3 2 p), b 5⟩ go)
  else if kind = kindRead then some (.read (b 0) go)
  else if kind = kindRelease then some (.release (b 0) go)
  else if kind = kindAck then some (.ack (b 0))
  else none

/-- Reads the frame of a host command: none for a kind of no host frame and for a payload that is
not of its kind's length (R196). -/
def commandOf (gatePin inPin : Level) (go : Extent) (kind : Byte) (p : Payload) : Option Instr :=
  if lengthOf kind = some p.length then commandFields gatePin inPin go kind p else none

/-- The command that a word spells by the table's bits. spec/opcode_table.json gives no row any
bits ("fields" is empty in every row), so no word spells a command. -/
def decodeTableWord (_nbits _w : Nat) : Option Instr := none

end Sys2Proof
end

