-- ==== Sys2Proof/Machine/State.lean ====
section
/-! DEFINITION. The state of the part: every piece of state the spec gives its ten blocks, the input
pins, the part's own time reference, the hand-overs between blocks that are under way, and the
queue of commands and events that wait. Plain data. `State.reset` is the part at the end of a
power-on device reset. -/

namespace Sys2Proof.Machine

/-- The spec gives the part no way to stop: every command is answered and every event is taken. So
no meaning faults, and there is no reason for a fault. -/
inductive Fault where
deriving DecidableEq, Repr

/-- Why a command is refused by the MODEL (the part's own refusals are replies, not these). -/
inductive Refusal where
  /-- Raised only by an arm of `exec` whose command has no meaning yet; no arm raises it now. Safe:
  the model stops where the part goes on. -/
  | notModelled (mnemonic : String)
deriving DecidableEq, Repr

/-! ## The Timebase (R1, R2, R16) -/

/-- The run state of the timebase (01 section 1.2). -/
inductive RunState where
  | stopped
  | running
  | held
deriving DecidableEq, Repr

/-- The tick source (R1). -/
inductive TickSource where
  | internal
  | refin
deriving DecidableEq, Repr

/-- The timebase's state (R1, R4, R16). `ticked` is the model's own: whether the last tick-clock period
taken was a tick (R3), which says what stamps its samples may carry (R68, notes/assumptions/13.md). -/
structure Timebase where
  value : Time
  run : RunState
  source : TickSource
  prescaler : Nat
  count : Nat
  gating : Bool
  polarity : Level
  ticked : Bool
deriving DecidableEq, Repr

/-! ## The Action Table (R17 to R22) -/

/-- A handle: generation 1..255 and slot 0..63 (R20). -/
structure Handle where
  gen : Byte
  slot : Fin 64
deriving DecidableEq, Repr

/-- A record's kind with its target, and its width for PULSE (R17). -/
inductive Action where
  | set (line : Fin 8)
  | clear (line : Fin 8)
  | toggle (line : Fin 8)
  | pulse (line : Fin 8) (width : Nat)
  | sample (input : Fin 4)
  | mark
deriving DecidableEq, Repr

/-- A record's repeat, when present: period and count, 0 for endless (R17). -/
structure Repeat where
  period : Nat
  count : Nat
deriving DecidableEq, Repr

/-- The report policy (R35). -/
inductive ReportPolicy where
  | none
  | each
  | last
  | every (n : Nat)
deriving DecidableEq, Repr

/-- The late policy (R17). -/
inductive LatePolicy where
  | fire
  | skip
deriving DecidableEq, Repr

/-- Who asked for a record's admission (R17). -/
inductive Origin where
  | host
  | trigger (slot : Fin 16)
deriving DecidableEq, Repr

/-- The fields an admission carries besides its due time (R28, R101). -/
structure Template where
  action : Action
  repeats : Option Repeat
  report : ReportPolicy
  late : LatePolicy
  label : Option Label
deriving DecidableEq, Repr

/-- An action record (R17). `standing` is its place in the order of admission (R21). -/
structure Record where
  handle : Handle
  body : Template
  due : Time
  remaining : Nat
  origin : Origin
  ordinal : BitVec 32
  lateFlag : Bool
  standing : Nat
deriving DecidableEq, Repr

/-- The Action Table: its live records in table order (R21), the generation of each slot (R20), and
the standing that the next admission takes (R21). -/
structure ActionTable where
  records : List Record
  gens : Vector Byte 64
  nextStanding : Nat
deriving DecidableEq, Repr

/-- Why a record left the table (R34). -/
inductive EndReason where
  | done
  | cancelled
  | skipped
  | range
deriving DecidableEq, Repr

/-- The status of one firing (R31). -/
inductive FiringStatus where
  | normal
  | late
  | suppressed
  | busy
deriving DecidableEq, Repr

/-! ## Output Lines (R46) -/

/-- A line's mode (R46). -/
inductive LineMode where
  | direct
  | scheduled
deriving DecidableEq, Repr

/-- A running pulse (R46). -/
structure Pulse where
  endTick : Time
  label : Option Label
  notify : Bool
deriving DecidableEq, Repr

/-- One output line (R46). The pin OUTn drives `level` (R47). -/
structure OutputLine where
  mode : LineMode
  idle : Level
  level : Level
  pulse : Option Pulse
deriving DecidableEq, Repr

/-! ## Input Channels (R65, R66) -/

/-- A channel's mode (R65). -/
inductive ChannelMode where
  | off
  | edge
  | width
  | period
deriving DecidableEq, Repr

/-- A channel's edge selection (R65). -/
inductive EdgeSelection where
  | rising
  | falling
  | both
  | high
  | low
deriving DecidableEq, Repr

/-- A channel's configuration (R65). -/
structure ChannelConfig where
  mode : ChannelMode
  edge : EdgeSelection
  divisor : Nat
  filter : Nat
  queue : Bool
deriving DecidableEq, Repr

/-- A transition first seen and not yet counted (R66, R69). -/
structure Pending where
  level : Level
  stamp : Time
  held : Nat
deriving DecidableEq, Repr

/-- A channel's run state with the working state R66 says is present in it. -/
inductive ChannelRun where
  | off
  | priming (count : Nat)
  | armed (settled : Level) (pending : Option Pending)
  | measuring (settled : Level) (pending : Option Pending) (reference : Time)
deriving DecidableEq, Repr

/-- Where a channel's samples stand against the tick-clock periods, of which each has one (R68). The
channel's sample and the timebase's claim of one period come together, so either may be taken
first. `inStep`: every period taken has its sample, or was not the channel's to sample. `due`: the
last period's sample is still to come. `ahead`: the sample of the period that is ending has been
taken, and the timebase's claim of that period is still to come. -/
inductive Sampling where
  | inStep
  | due
  | ahead
deriving DecidableEq, Repr

/-- One input channel (R65, R66), with its samples' place among the tick-clock periods (R68). -/
structure Channel where
  config : ChannelConfig
  run : ChannelRun
  edgeCount : Nat
  events : BitVec 32
  sampling : Sampling
deriving DecidableEq, Repr

/-- The direction of an edge (R70). -/
inductive Polarity where
  | rising
  | falling
deriving DecidableEq, Repr

/-! ## The Sampler (R87, R88) -/

/-- The class of a result against a window, and the zone a trigger names (R93, R101). -/
inductive ZoneClass where
  | below
  | inside
  | above
deriving DecidableEq, Repr

/-- What a conversion keeps of the SAMPLE firing that started it (R87). -/
structure ConvContext where
  input : Fin 4
  fireTick : Time
  label : Option Label
  late : Bool
deriving DecidableEq, Repr

/-- The converter's state, with its context and the moment its stage ends where a conversion is in
progress, and the level held while it is converted (R87, R92). -/
inductive Converter where
  | off
  | idle
  | acquiring (ctx : ConvContext) (endAt : Moment)
  | converting (ctx : ConvContext) (held : BitVec 12) (endAt : Moment)
  | recovering
deriving DecidableEq, Repr

/-- One analog input's settings and records (R88). A zone of `none` is UNKNOWN. -/
structure AnalogInput where
  low : Nat
  high : Nat
  queue : Bool
  zone : Option ZoneClass
  busyMiss : BitVec 16
deriving DecidableEq, Repr

/-- The sampler (R87, R88). -/
structure Sampler where
  conv : Converter
  acquisition : Nat
  recoveryEnd : Option Moment
  inputs : Vector AnalogInput 4
deriving DecidableEq, Repr

/-! ## Triggers (R101 to R103) -/

/-- What a source event names, and what a slot's source names (R101, R104): a slot matches an event
when the two are equal. -/
inductive EventSource where
  | channel (n : Fin 8)
  | zone (input : Fin 4) (entered : ZoneClass)
  | label (l : Label)
deriving DecidableEq, Repr

/-- A source event with its source time (R104). -/
structure SourceEvent where
  source : EventSource
  time : Time
deriving DecidableEq, Repr

/-- What a source event does at a slot whose list is at its limit (R101). -/
inductive AtLimit where
  | ignore
  | replaceOldest
deriving DecidableEq, Repr

/-- A trigger's definition (R101). -/
structure TriggerDef where
  source : EventSource
  shots : Nat
  delay : Nat
  limit : Nat
  atLimit : AtLimit
  template : Template
deriving DecidableEq, Repr

/-- The state of a defined slot (R102). -/
inductive ArmState where
  | armed
  | paused
  | spent
deriving DecidableEq, Repr

/-- A slot's use: EMPTY, or defined with its state, shots left and live-instance list, oldest first
(R102). -/
inductive SlotUse where
  | empty
  | defined (d : TriggerDef) (state : ArmState) (shotsLeft : Nat) (list : List Handle)
deriving DecidableEq, Repr

/-- One trigger slot; the miss counter is kept through EMPTY (R116). -/
structure TriggerSlot where
  use : SlotUse
  misses : BitVec 16
deriving DecidableEq, Repr

/-- A request that the Trigger Table has handed to the Action Table and whose answer it awaits
(R28, R29, R103): `replaces` is the oldest instance a replacement names. -/
structure AdmissionRequest where
  slot : Fin 16
  template : Template
  due : Time
  replaces : Option Handle
deriving DecidableEq, Repr

/-- The Trigger Table's claim in progress, when one waits for the Action Table (R103): a source
event with the request outstanding, or a TRIGGER_CLEAR with CANCEL with the handles whose cancel
is not yet taken and the number its reply carries (R116). -/
inductive TriggerClaim where
  | event (e : SourceEvent) (r : AdmissionRequest)
  | clearing (handles : List Handle) (count : Nat)
deriving DecidableEq, Repr

/-- The Trigger Table (R102, R103). -/
structure TriggerTable where
  slots : Vector TriggerSlot 16
  claim : Option TriggerClaim
deriving DecidableEq, Repr

/-! ## The Stamp Queue and the Report Stream (R121, R124, R126) -/

/-- What was measured: kind, source and value, with the flags that kind has (R121, R79, R94). -/
inductive Measurement where
  | edge (n : Fin 8) (polarity : Polarity)
  | width (n : Fin 8) (value : BitVec 32) (overFlag : Bool)
  | period (n : Fin 8) (value : BitVec 32) (overFlag : Bool)
  | sample (i : Fin 4) (result : BitVec 12) (zone : ZoneClass) (late : Bool) (label : Option Label)
deriving DecidableEq, Repr

/-- An offer to the Stamp Queue: the entry's contents before admission (R79, R94). -/
structure StampOffer where
  what : Measurement
  time : Time
deriving DecidableEq, Repr

/-- A stamp entry's contents, fixed at admission (R121). -/
structure StampContent where
  what : Measurement
  time : Time
  lostBefore : Option (BitVec 16)
deriving DecidableEq, Repr

/-- A stamp entry's state (R121). -/
inductive EntryState where
  | waiting
  | inFlight (sequence : Byte)
deriving DecidableEq, Repr

/-- A stamp entry (R121): `since` is its moment of admission. -/
structure StampEntry where
  state : EntryState
  content : StampContent
  since : Moment
deriving DecidableEq, Repr

/-- The Stamp Queue, oldest entry first, with its loss accounting (R122, R124). -/
structure StampQueue where
  entries : List StampEntry
  channelLoss : Vector (BitVec 16) 8
  inputLoss : Vector (BitVec 16) 4
  dropped : BitVec 32
deriving DecidableEq, Repr

/-- The state of the report stream (R126). -/
inductive StreamState where
  | off
  | on
  | stalled
deriving DecidableEq, Repr

/-- A report of the window: number, contents and resend mark (R126, R133). -/
structure Report where
  sequence : Byte
  contents : List StampContent
  marked : Bool
deriving DecidableEq, Repr

/-- The report stream (R126). The retransmit timer is its expiry moment when it runs. -/
structure ReportStream where
  state : StreamState
  batch : Nat
  hold : Nat
  interval : Nat
  retryLimit : Nat
  window : List Report
  retryCount : Nat
  timer : Option Moment
  nextSequence : Byte
  stale : BitVec 16
deriving DecidableEq, Repr

/-! ## Notices (R146, R149) -/

/-- The cause of a reset (R150). -/
inductive ResetCause where
  | power
  | pin
  | command
deriving DecidableEq, Repr

/-- The detail of a TRIGGER_MISS (R111). -/
inductive MissDetail where
  | tableFull
  | past
deriving DecidableEq, Repr

/-- The detail of a LINK_ERROR (R149). -/
inductive LinkErrorKind where
  | length
  | gap
  | check
  | tag0
deriving DecidableEq, Repr

/-- A notice's kind with its subject and detail (R149, section 8.3). -/
inductive NoticeBody where
  | ready (cause : ResetCause)
  | fired (h : Handle) (status : FiringStatus) (ordinal : BitVec 32)
  | ended (h : Handle) (reason : EndReason)
  | truncated (line : Fin 8)
  | triggerMiss (slot : Fin 16) (detail : MissDetail)
  | timeEnd
  | streamStalled
  | linkError (detail : LinkErrorKind)
deriving DecidableEq, Repr

/-- A block that offers notices (section 8.3). READY is the reset's own (R150). Each line is a block of
its own, as the introduction of 03_output_lines says; 00_scope's table of blocks has one row for all
eight, and reading the offers of two lines as two blocks' is a DESIGN CHOICE
(notes/assumptions/19.md). -/
inductive NoticeBlock where
  | timebase
  | actionTable
  | outputLine (n : Fin 8)
  | triggerTable
  | reportStream
  | linkReceiver
  | commandBlock
  | reset
deriving DecidableEq, Repr

/-- A notice as its block offers it, with the time at which it was produced (R149, R151, R152). -/
structure NoticeOffer where
  body : NoticeBody
  time : Time
  label : Option Label
deriving DecidableEq, Repr

/-- A notice record (R149). -/
structure Notice where
  body : NoticeBody
  time : Time
  label : Option Label
  lostBefore : Option (BitVec 16)
deriving DecidableEq, Repr

/-- The Notice Queue, oldest record first (R146). -/
structure NoticeQueue where
  queue : List Notice
  lost : BitVec 16
  dropped : BitVec 32
deriving DecidableEq, Repr

/-! ## The command block (R158) -/

/-- A reply's kind, tag and payload (R158, R165). -/
structure Reply where
  kind : Byte
  tag : Byte
  payload : Payload
deriving DecidableEq, Repr

/-- The state of a reply slot (R158, R159). -/
inductive SlotState where
  | free
  | reserved
  | filled (r : Reply)
  | sending (r : Reply)
deriving DecidableEq, Repr

/-- A command of the command queue (R158). -/
structure QueuedCommand where
  tag : Byte
  kind : Byte
  payload : Payload
  slot : Fin 16
deriving DecidableEq, Repr

/-- An entry of the await list (R158); its reply's kind is AWAIT's. -/
structure AwaitEntry where
  tag : Byte
  handle : Handle
  expiry : Option Moment
  slot : Fin 16
deriving DecidableEq, Repr

/-- RESET's option (R172). -/
inductive ResetOption where
  | plain
  | holdLines
deriving DecidableEq, Repr

/-- How far the execution of the oldest command has come (R164): nothing of it has been done; STATUS
has made these readings, in R171's order; or the command's rule is complete and its reply is made but
does not yet fill its slot. A TRIGGER_CLEAR with CANCEL under way stands in the Trigger Table's
claim. -/
inductive Progress where
  | notStarted
  | reading (made : List Payload)
  | replying (r : Reply)
deriving DecidableEq, Repr

/-- The command block (R158). `replyQueue` is the FILLED slots in the order they were filled, and
`progress` is the interpreter's (R164). -/
structure CommandBlock where
  queue : List QueuedCommand
  progress : Progress
  awaits : List AwaitEntry
  slots : Vector SlotState 16
  replyQueue : List (Fin 16)
  resetPending : Option ResetOption
  accepted : BitVec 32
  refused : BitVec 16
  refusalsLost : BitVec 16
  tagZero : BitVec 16
deriving DecidableEq, Repr

/-! ## The Serial Link (R179, R181, R188) -/

/-- The receive machine's state (R181). -/
inductive RxState where
  | hunt
  | len
  | tag
  | kind
  | body
  | crcHi
  | crcLo
deriving DecidableEq, Repr

/-- The receiver and its receive machine (R180, R181). `waitHigh`: no character begins until RXD has
stood HIGH, because the last stop bit was sampled LOW (R180), or because the receiver has seen no level
since a device reset and takes its first character from the first fall it sees (R193). -/
structure Receiver where
  state : RxState
  length : Nat
  tag : Byte
  kind : Byte
  payload : Payload
  check : BitVec 16
  checkHigh : Byte
  gapExpiry : Option Moment
  lengthErrors : BitVec 16
  gapErrors : BitVec 16
  checkErrors : BitVec 16
  waitHigh : Bool
deriving DecidableEq, Repr

/-- The source of the frame under transmission (R188). -/
inductive FrameSource where
  | reply (slot : Fin 16)
  | notice
  | firstSending (sequence : Byte)
  | resend (sequence : Byte)
deriving DecidableEq, Repr

/-- A frame's contents: tag, kind and payload (R188). -/
structure Frame where
  tag : Byte
  kind : Byte
  payload : Payload
deriving DecidableEq, Repr

/-- The transmitter's state (R188): IDLE, SENDING a frame, or holding TXD HIGH from a device reset
to the end of the character time that follows it (R193). -/
inductive TxState where
  | idle
  | postReset
  | sending (source : FrameSource) (frame : Frame)
deriving DecidableEq, Repr

/-- The transmitter. `told` is the model's own: a source has told the transmitter, in IDLE, that it
has something to send, and the boundary for it is still to come (R189). -/
structure Transmitter where
  state : TxState
  told : Bool
deriving DecidableEq, Repr

/-! ## Pins, hand-overs and the whole -/

/-- The input pins, each at the level at which the last step that read it found it: GATE, IN0..IN7,
AIN0..AIN3 (as the 12-bit result the level converts to), the rate straps, and whether the RESET
pin is held active. -/
structure Pins where
  gate : Level
  inputs : Vector Level 8
  analog : Vector (BitVec 12) 4
  rate1 : Level
  rate0 : Level
  resetActive : Bool
deriving DecidableEq, Repr

/-- Hand-overs made and not yet taken, each in the order made: offers to the Stamp Queue (R67, R94),
source events to the Trigger Table (R104), and the payloads of ACK frames to the report stream
(R160). The receiving block takes each as a claim of its own. Offers of notices stand in the
state's `offered`. -/
structure Handovers where
  offers : List StampOffer
  events : List SourceEvent
  acks : List Payload
deriving DecidableEq, Repr

/-- A removal report to the await list: the handle and the end reason of a record that has left the
Action Table (R34, R168). -/
structure RemovalReport where
  handle : Handle
  reason : EndReason
deriving DecidableEq, Repr

/-- A claim taken at the end of a step: the Notice Queue takes the oldest offer that one block has
waiting, or every offer that waits, in the order made (R146); the await list takes the oldest removal
report that waits, or every one, in the order made (R168); or an idle transmitter that has been told
something takes its boundary (R189). -/
inductive EndClaim where
  | offer (block : NoticeBlock)
  | offers
  | removal
  | removals
  | boundary
deriving DecidableEq, Repr

/-- The state of the part. `offered` is the notices offered and not yet taken by the Notice Queue, in
the order made (R146), and `removals` the removal reports not yet taken by the await list, in the
order made (R168), of which a step leaves none. `endings` is the model's own, put there from outside
as `pending` is: which claims end each of the coming steps, the first list the next step's; where
there is none a step has the usual ending (notes/assumptions/19.md). -/
structure State where
  time : Timebase
  table : ActionTable
  lines : Vector OutputLine 8
  channels : Vector Channel 8
  sampler : Sampler
  triggers : TriggerTable
  stamps : StampQueue
  stream : ReportStream
  notices : NoticeQueue
  cmd : CommandBlock
  rx : Receiver
  tx : Transmitter
  rate : BitVec 2
  pins : Pins
  now : Moment
  handed : Handovers
  offered : List NoticeOffer
  removals : List RemovalReport
  endings : List (List EndClaim)
  pending : List Instr
deriving DecidableEq, Repr

/-! ## Updates of one field (their lemmas are in Sys2Proof/Laws/State.lean) -/

/-- Replaces the timebase. -/
def State.withTime (s : State) (x : Timebase) : State := { s with time := x }
/-- Replaces the Action Table. -/
def State.withTable (s : State) (x : ActionTable) : State := { s with table := x }
/-- Replaces the output lines. -/
def State.withLines (s : State) (x : Vector OutputLine 8) : State := { s with lines := x }
/-- Replaces the input channels. -/
def State.withChannels (s : State) (x : Vector Channel 8) : State := { s with channels := x }
/-- Replaces the sampler. -/
def State.withSampler (s : State) (x : Sampler) : State := { s with sampler := x }
/-- Replaces the Trigger Table. -/
def State.withTriggers (s : State) (x : TriggerTable) : State := { s with triggers := x }
/-- Replaces the Stamp Queue. -/
def State.withStamps (s : State) (x : StampQueue) : State := { s with stamps := x }
/-- Replaces the report stream. -/
def State.withStream (s : State) (x : ReportStream) : State := { s with stream := x }
/-- Replaces the Notice Queue. -/
def State.withNotices (s : State) (x : NoticeQueue) : State := { s with notices := x }
/-- Replaces the command block. -/
def State.withCmd (s : State) (x : CommandBlock) : State := { s with cmd := x }
/-- Replaces the receive machine. -/
def State.withRx (s : State) (x : Receiver) : State := { s with rx := x }
/-- Replaces the transmitter. -/
def State.withTx (s : State) (x : Transmitter) : State := { s with tx := x }
/-- Replaces the rate in force. -/
def State.withRate (s : State) (x : BitVec 2) : State := { s with rate := x }
/-- Replaces the record of the input pins. -/
def State.withPins (s : State) (x : Pins) : State := { s with pins := x }
/-- Replaces the reading of the time reference. -/
def State.withNow (s : State) (x : Moment) : State := { s with now := x }
/-- Replaces the hand-overs under way. -/
def State.withHanded (s : State) (x : Handovers) : State := { s with handed := x }
/-- Replaces the offers of notices that wait. -/
def State.withOffered (s : State) (x : List NoticeOffer) : State := { s with offered := x }
/-- Replaces the removal reports that wait. -/
def State.withRemovals (s : State) (x : List RemovalReport) : State := { s with removals := x }
/-- Replaces the endings of the coming steps. -/
def State.withEndings (s : State) (x : List (List EndClaim)) : State := { s with endings := x }
/-- Replaces the queue of commands that wait. -/
def State.withPending (s : State) (x : List Instr) : State := { s with pending := x }

/-! ## Reset values, block by block -/

/-- R16. -/
def Timebase.reset : Timebase where
  value := 0
  run := .stopped
  source := .internal
  prescaler := 1
  count := 0
  gating := false
  polarity := .high
  ticked := false

/-- R44: empty, and every generation 1. -/
def ActionTable.reset : ActionTable where
  records := []
  gens := Vector.replicate 64 1
  nextStanding := 0

/-- R63. -/
def OutputLine.reset : OutputLine where
  mode := .direct
  idle := .low
  level := .low
  pulse := none

/-- R86, with no sample owed or taken ahead. -/
def Channel.reset : Channel where
  config := { mode := .edge, edge := .rising, divisor := 1, filter := 0, queue := true }
  run := .off
  edgeCount := 0
  events := 0
  sampling := .inStep

/-- R100, each input. -/
def AnalogInput.reset : AnalogInput where
  low := 0
  high := 4095
  queue := true
  zone := none
  busyMiss := 0

/-- R100, with the recovery end absent as after power-on. -/
def Sampler.reset : Sampler where
  conv := .off
  acquisition := 10
  recoveryEnd := none
  inputs := Vector.replicate 4 AnalogInput.reset

/-- R119. -/
def TriggerTable.reset : TriggerTable where
  slots := Vector.replicate 16 { use := .empty, misses := 0 }
  claim := none

/-- R144. -/
def StampQueue.reset : StampQueue where
  entries := []
  channelLoss := Vector.replicate 8 0
  inputLoss := Vector.replicate 4 0
  dropped := 0

/-- R144. -/
def ReportStream.reset : ReportStream where
  state := .off
  batch := 8
  hold := 10
  interval := 100
  retryLimit := 5
  window := []
  retryCount := 0
  timer := none
  nextSequence := 1
  stale := 0

/-- R150: READY with the cause of the reset, time 0, no label and no lost-before. -/
def Notice.readyFor (cause : ResetCause) : Notice where
  body := .ready cause
  time := 0
  label := none
  lostBefore := none

/-- R156, R157: READY alone, and both counts 0. -/
def NoticeQueue.resetFor (cause : ResetCause) : NoticeQueue where
  queue := [Notice.readyFor cause]
  lost := 0
  dropped := 0

/-- R178, with no command under execution. -/
def CommandBlock.reset : CommandBlock where
  queue := []
  progress := .notStarted
  awaits := []
  slots := Vector.replicate 16 .free
  replyQueue := []
  resetPending := none
  accepted := 0
  refused := 0
  refusalsLost := 0
  tagZero := 0

/-- R193: HUNT with no partial frame, the error counts 0, and the receiver looking for a fall of RXD.
In HUNT the fields of a frame are unused (R181); they stand at 0. -/
def Receiver.reset : Receiver where
  state := .hunt
  length := 0
  tag := 0
  kind := 0
  payload := []
  check := 0
  checkHigh := 0
  gapExpiry := none
  lengthErrors := 0
  gapErrors := 0
  checkErrors := 0
  waitHigh := true

/-- R193: TXD stands HIGH until the character time after the reset has passed. -/
def Transmitter.reset : Transmitter where
  state := .postReset
  told := false

/-- No hand-over under way. -/
def Handovers.none : Handovers where
  offers := []
  events := []
  acks := []

/-- DESIGN CHOICE (notes/assumptions/2.md), unsafe: before any step has read it, every input pin is
recorded LOW (0 for an analog input), and the RESET pin is not active. -/
def Pins.reset : Pins where
  gate := .low
  inputs := Vector.replicate 8 .low
  analog := Vector.replicate 4 0
  rate1 := .low
  rate0 := .low
  resetActive := false

/-- The part at the end of a power-on device reset (R16, R44, R63, R86, R100, R119, R144, R156, R178,
R193), before the character time of R193 has passed, with nothing waiting. The rate is that of
straps LOW, LOW (notes/assumptions/2.md). -/
def State.reset : State where
  time := Timebase.reset
  table := ActionTable.reset
  lines := Vector.replicate 8 OutputLine.reset
  channels := Vector.replicate 8 Channel.reset
  sampler := Sampler.reset
  triggers := TriggerTable.reset
  stamps := StampQueue.reset
  stream := ReportStream.reset
  notices := NoticeQueue.resetFor .power
  cmd := CommandBlock.reset
  rx := Receiver.reset
  tx := Transmitter.reset
  rate := 0
  pins := Pins.reset
  now := 0
  handed := Handovers.none
  offered := []
  removals := []
  endings := []
  pending := []

end Sys2Proof.Machine
end

