-- ==== Sys2Proof/Machine/Operands.lean ====
section
/-! DEFINITION. The operand forms: how each field of a command is read, with the range its rule
accepts (R23, R81, R114, R197), and how each field of a reply, record, report or notice is written
(R195 to R199). The check of R185 and the building of a frame (R188) stand here too. -/

namespace Sys2Proof.Machine

/-! ## Reading fields (R197): `none` is a value outside the field's range -/

/-- A number field that names one of n places: a line, a channel, an input or a slot. -/
def readIndex (n : Nat) (b : Byte) : Option (Fin n) :=
  if h : b.toNat < n then some ⟨b.toNat, h⟩ else none

/-- A level: 0 LOW, 1 HIGH. -/
def readLevel (b : Byte) : Option Level :=
  match b.toNat with
  | 0 => some .low
  | 1 => some .high
  | _ => none

/-- A yes or no field: 0 no, 1 yes (queue enable, gating, sampler and stream enable, release). -/
def readYesNo (b : Byte) : Option Bool :=
  match b.toNat with
  | 0 => some false
  | 1 => some true
  | _ => none

/-- A tick source: 0 INTERNAL, 1 REFIN (R7). -/
def readSource (b : Byte) : Option TickSource :=
  match b.toNat with
  | 0 => some .internal
  | 1 => some .refin
  | _ => none

/-- A prescaler: 1, 2, 4, 8, 16, 32, 64 or 128 (R7). -/
def readPrescaler (b : Byte) : Option Nat :=
  if b.toNat ∈ [1, 2, 4, 8, 16, 32, 64, 128] then some b.toNat else none

/-- A line mode: 0 DIRECT, 1 SCHEDULED (R57). -/
def readLineMode (b : Byte) : Option LineMode :=
  match b.toNat with
  | 0 => some .direct
  | 1 => some .scheduled
  | _ => none

/-- A handle: generation 1..255 and slot 0..63 (R39, R166). -/
def readHandle (gen slot : Byte) : Option Handle :=
  if gen = 0 then none else (readIndex 64 slot).map (fun i => ⟨gen, i⟩)

/-- A label field: 0 is absence (R23, R195). -/
def readLabel (x : BitVec 16) : Option Label := if x = 0 then none else some x

/-- A repeat: a period of 0 is absence, and its count is then ignored (R195). -/
def readRepeat (period : BitVec 32) (count : BitVec 16) : Option Repeat :=
  if period = 0 then none else some ⟨period.toNat, count.toNat⟩

/-- A kind with the fields it takes: the target for every kind but MARK, the width for PULSE (R23). -/
def readAction (f : TemplateFields) : Option Action :=
  match f.kind.toNat with
  | 0 => (readIndex 8 f.target).map .set
  | 1 => (readIndex 8 f.target).map .clear
  | 2 => (readIndex 8 f.target).map .toggle
  | 3 => if f.width = 0 then none else (readIndex 8 f.target).map (fun n => .pulse n f.width.toNat)
  | 4 => (readIndex 4 f.target).map .sample
  | 5 => some .mark
  | _ => none

/-- A report policy; n is looked at for EVERY alone (R23). -/
def readReport (report n : Byte) : Option ReportPolicy :=
  match report.toNat with
  | 0 => some .none
  | 1 => some .each
  | 2 => some .last
  | 3 => if 2 ≤ n.toNat ∧ n.toNat ≤ 16 then some (.every n.toNat) else none
  | _ => none

/-- A late policy: 0 FIRE, 1 SKIP (R23). -/
def readLate (b : Byte) : Option LatePolicy :=
  match b.toNat with
  | 0 => some .fire
  | 1 => some .skip
  | _ => none

/-- The fields SCHEDULE and a template share, checked as R23 checks them. -/
def readBody (f : TemplateFields) : Option Template :=
  match readAction f, readReport f.report f.n, readLate f.late with
  | some a, some r, some l =>
      some { action := a, repeats := readRepeat f.period f.count, report := r, late := l
             label := readLabel f.label }
  | _, _, _ => none

/-- A due mode: `false` ABSOLUTE, `true` RELATIVE (R23). -/
def readDueMode (b : Byte) : Option Bool := readYesNo b

/-- A channel mode (R81 check 2). -/
def readChannelMode (b : Byte) : Option ChannelMode :=
  match b.toNat with
  | 0 => some .off
  | 1 => some .edge
  | 2 => some .width
  | 3 => some .period
  | _ => none

/-- An edge selection that is valid for the mode (R81 check 3). -/
def readEdge (mode : ChannelMode) (b : Byte) : Option EdgeSelection :=
  match mode, b.toNat with
  | .width, 3 => some .high
  | .width, 4 => some .low
  | .width, _ => none
  | _, 0 => some .rising
  | _, 1 => some .falling
  | _, 2 => some .both
  | _, _ => none

/-- A divisor: 1..255, and 1 for WIDTH (R81 check 4). -/
def readDivisor (mode : ChannelMode) (b : Byte) : Option Nat :=
  if b = 0 ∨ (mode = .width ∧ b ≠ 1) then none else some b.toNat

/-- A number field with the range it accepts. -/
def readRange (lo hi : Nat) (x : Nat) : Option Nat := if lo ≤ x ∧ x ≤ hi then some x else none

/-- The channel and configuration of a CHANNEL (R81 checks 1 to 6). -/
def readChannel (f : ChannelFields) : Option (Fin 8 × ChannelConfig) :=
  match readIndex 8 f.channel, readChannelMode f.mode with
  | some n, some mode =>
      match readEdge mode f.edge, readDivisor mode f.divisor, readRange 0 15 f.filter.toNat,
          readYesNo f.queue with
      | some edge, some divisor, some filter, some queue =>
          some (n, { mode := mode, edge := edge, divisor := divisor, filter := filter
                     queue := queue })
      | _, _, _, _ => none
  | _, _ => none

/-- A zone a trigger may name: 1 BELOW, 2 INSIDE, 3 ABOVE (R114 check 2). -/
def readZone (b : Byte) : Option ZoneClass :=
  match b.toNat with
  | 1 => some .below
  | 2 => some .inside
  | 3 => some .above
  | _ => none

/-- A trigger's source, read by its kind; the fields the kind does not read are ignored (R196). -/
def readEventSource (f : TriggerFields) : Option EventSource :=
  match f.sourceKind.toNat with
  | 0 => (readIndex 8 f.sourceNumber).map .channel
  | 1 =>
      match readIndex 4 f.sourceNumber, readZone f.sourceZone with
      | some i, some z => some (.zone i z)
      | _, _ => none
  | 2 => if f.sourceLabel = 0 then none else some (.label f.sourceLabel)
  | _ => none

/-- An at-limit policy: 0 IGNORE, 1 REPLACE_OLDEST (R114 check 4). -/
def readAtLimit (b : Byte) : Option AtLimit :=
  match b.toNat with
  | 0 => some .ignore
  | 1 => some .replaceOldest
  | _ => none

/-- The slot and definition of a TRIGGER (R114 checks 1 to 5). -/
def readTriggerDef (f : TriggerFields) : Option (Fin 16 × TriggerDef) :=
  match readIndex 16 f.slot, readEventSource f, readRange 1 8 f.limit.toNat, readAtLimit f.atLimit,
      readBody f.template with
  | some k, some src, some limit, some atLimit, some body =>
      if f.delay = 0 then none
      else some (k, { source := src, shots := f.shots.toNat, delay := f.delay.toNat, limit := limit
                      atLimit := atLimit, template := body })
  | _, _, _, _, _ => none

/-! ## Codes the part sends (R197) -/

/-- Run state. -/
def RunState.code : RunState → Byte
  | .stopped => 0
  | .running => 1
  | .held => 2

/-- Tick source. -/
def TickSource.code : TickSource → Byte
  | .internal => 0
  | .refin => 1

/-- A yes or no field. -/
def boolCode (b : Bool) : Byte := if b then 1 else 0

/-- Level. -/
def levelCode : Level → Byte
  | .low => 0
  | .high => 1

/-- Line mode. -/
def LineMode.code : LineMode → Byte
  | .direct => 0
  | .scheduled => 1

/-- Action kind. -/
def Action.kindCode : Action → Byte
  | .set _ => 0
  | .clear _ => 1
  | .toggle _ => 2
  | .pulse _ _ => 3
  | .sample _ => 4
  | .mark => 5

/-- The target a record sends; 0 for MARK. -/
def Action.targetCode : Action → Byte
  | .set n | .clear n | .toggle n | .pulse n _ => BitVec.ofNat 8 n.val
  | .sample i => BitVec.ofNat 8 i.val
  | .mark => 0

/-- The width a record sends; 0 for every kind but PULSE. -/
def Action.widthSent : Action → Nat
  | .pulse _ w => w
  | _ => 0

/-- Report policy. -/
def ReportPolicy.code : ReportPolicy → Byte
  | .none => 0
  | .each => 1
  | .last => 2
  | .every _ => 3

/-- The n of a report policy; 0 unless EVERY. -/
def ReportPolicy.nSent : ReportPolicy → Byte
  | .every n => BitVec.ofNat 8 n
  | _ => 0

/-- Late policy. -/
def LatePolicy.code : LatePolicy → Byte
  | .fire => 0
  | .skip => 1

/-- Origin: the slot of a trigger, 255 for the host. -/
def Origin.code : Origin → Byte
  | .host => 255
  | .trigger k => BitVec.ofNat 8 k.val

/-- End reason. -/
def EndReason.code : EndReason → Byte
  | .done => 0
  | .cancelled => 1
  | .skipped => 2
  | .range => 3

/-- Firing status. -/
def FiringStatus.code : FiringStatus → Byte
  | .normal => 0
  | .late => 1
  | .suppressed => 2
  | .busy => 3

/-- Channel mode. -/
def ChannelMode.code : ChannelMode → Byte
  | .off => 0
  | .edge => 1
  | .width => 2
  | .period => 3

/-- Edge selection. -/
def EdgeSelection.code : EdgeSelection → Byte
  | .rising => 0
  | .falling => 1
  | .both => 2
  | .high => 3
  | .low => 4

/-- Channel state. -/
def ChannelRun.code : ChannelRun → Byte
  | .off => 0
  | .priming _ => 1
  | .armed _ _ => 2
  | .measuring _ _ _ => 3

/-- Converter state. -/
def Converter.code : Converter → Byte
  | .off => 0
  | .idle => 1
  | .acquiring _ _ => 2
  | .converting _ _ _ => 3
  | .recovering => 4

/-- A zone or class: 1 BELOW, 2 INSIDE, 3 ABOVE. -/
def ZoneClass.code : ZoneClass → Byte
  | .below => 1
  | .inside => 2
  | .above => 3

/-- An input's zone, 0 for UNKNOWN. -/
def zoneCode : Option ZoneClass → Byte
  | none => 0
  | some z => z.code

/-- Trigger state. -/
def SlotUse.code : SlotUse → Byte
  | .empty => 0
  | .defined _ .armed _ _ => 1
  | .defined _ .paused _ _ => 2
  | .defined _ .spent _ _ => 3

/-- Stream state. -/
def StreamState.code : StreamState → Byte
  | .off => 0
  | .on => 1
  | .stalled => 2

/-- The reply statuses (R196). -/
inductive Status where
  | ok
  | queueFull
  | dupTag
  | unknownKind
  | badLength
  | badField
  | state
  | noSuch
  | tableFull
  | awaitFull
  | past
  | range
  | timeout
  | aborted
deriving DecidableEq, Repr

/-- Status codes (R196). -/
def Status.code : Status → Byte
  | .ok => 0x00
  | .queueFull => 0x01
  | .dupTag => 0x02
  | .unknownKind => 0x03
  | .badLength => 0x04
  | .badField => 0x05
  | .state => 0x06
  | .noSuch => 0x07
  | .tableFull => 0x08
  | .awaitFull => 0x09
  | .past => 0x0A
  | .range => 0x0B
  | .timeout => 0x0C
  | .aborted => 0x0D

/-! ## Records the part writes -/

/-- An optional 16-bit field: 0 when absent (R195). -/
def optBytes (x : Option (BitVec 16)) : Payload := be 2 ((x.getD 0).toNat)

/-- A handle, generation first (R195). -/
def handleBytes (h : Handle) : Payload := [h.gen, BitVec.ofNat 8 h.slot.val]

/-- The repeat period a record sends; 0 when repeat is absent. -/
def periodSent : Option Repeat → Nat
  | none => 0
  | some r => r.period

/-- The remaining count a record sends; 0 when repeat is absent (section 11.5). -/
def remainingSent (r : Record) : Nat :=
  match r.body.repeats with
  | none => 0
  | some _ => r.remaining

/-- An action record of a LIST_ACTIONS reply, 29 bytes (R41, R196, section 11.5). -/
def actionRecordBytes (r : Record) : Payload :=
  handleBytes r.handle ++ [r.body.action.kindCode, r.body.action.targetCode]
    ++ be 2 r.body.action.widthSent ++ be 6 r.due ++ be 4 (periodSent r.body.repeats)
    ++ be 2 (remainingSent r)
    ++ [r.body.report.code, r.body.report.nSent, r.body.late.code]
    ++ optBytes r.body.label ++ [r.origin.code] ++ be 4 r.ordinal.toNat ++ [boolCode r.lateFlag]

/-- One bit of a flags byte. -/
def flagBit (i : Nat) (b : Bool) : Byte := if b then BitVec.ofNat 8 (2 ^ i) else 0

/-- A line state of a LINE_STATUS reply, 10 bytes (R60, R196). With no pulse running the end tick and the
label are 0 (R195); bit 4, the notify flag of the running pulse, is then 0 too, of which R195 and
section 11.4 say nothing: a DESIGN CHOICE (notes/assumptions/22.md). -/
def lineStateBytes (l : OutputLine) : Payload :=
  let flags := flagBit 0 (l.mode = .scheduled) ||| flagBit 1 (l.idle = .high)
    ||| flagBit 2 (l.level = .high)
  match l.pulse with
  | none => flags :: (be 7 0 ++ be 2 0)
  | some p => (flags ||| flagBit 3 true ||| flagBit 4 p.notify) :: (be 7 p.endTick ++ optBytes p.label)

/-- The first byte of a stamp entry: kind in bits 7 to 4, source number in bits 3 to 0 (R198). -/
def stampHead : Measurement → Byte
  | .edge n _ => BitVec.ofNat 8 (0 * 16 + n.val)
  | .width n _ _ => BitVec.ofNat 8 (1 * 16 + n.val)
  | .period n _ _ => BitVec.ofNat 8 (2 * 16 + n.val)
  | .sample i _ _ _ _ => BitVec.ofNat 8 (3 * 16 + i.val)

/-- The flags byte of a stamp entry: polarity, OVER, LATE and the class in bits 5 and 4 (R198). -/
def stampFlags : Measurement → Byte
  | .edge _ p => flagBit 0 (p = .falling)
  | .width _ _ o => flagBit 1 o
  | .period _ _ o => flagBit 1 o
  | .sample _ _ z late _ => flagBit 2 late ||| BitVec.ofNat 8 (z.code.toNat * 16)

/-- Bytes 8 to 11 of a stamp entry: 0, the 32-bit value, or the label and the result (R198). -/
def stampValue : Measurement → Payload
  | .edge _ _ => be 4 0
  | .width _ v _ => be 4 v.toNat
  | .period _ v _ => be 4 v.toNat
  | .sample _ r _ _ label => optBytes label ++ be 2 r.toNat

/-- A stamp entry, 14 bytes, the same in a READ reply and in a report (R198). -/
def stampBytes (c : StampContent) : Payload :=
  [stampHead c.what, stampFlags c.what] ++ be 6 c.time ++ stampValue c.what ++ optBytes c.lostBefore

/-- The payload of a STAMPS frame: number, entry count, entries (R198). -/
def reportPayload (sequence : Byte) (contents : List StampContent) : Payload :=
  [sequence, BitVec.ofNat 8 contents.length] ++ contents.flatMap stampBytes

/-- The STAMPS frame of a report: tag 0, kind 0xF1 (R188, R198). -/
def reportFrame (r : Report) : Frame := ⟨0, kindStamps, reportPayload r.sequence r.contents⟩

/-- The cause of a reset (R197). -/
def ResetCause.code : ResetCause → Byte
  | .power => 0
  | .pin => 1
  | .command => 2

/-- The detail of a TRIGGER_MISS (R197). -/
def MissDetail.code : MissDetail → Byte
  | .tableFull => 0
  | .past => 1

/-- The detail of a LINK_ERROR (R197). -/
def LinkErrorKind.code : LinkErrorKind → Byte
  | .length => 0
  | .gap => 1
  | .check => 2
  | .tag0 => 3

/-- Notice kind (R197). -/
def NoticeBody.code : NoticeBody → Byte
  | .ready _ => 0
  | .fired _ _ _ => 1
  | .ended _ _ => 2
  | .truncated _ => 3
  | .triggerMiss _ _ => 4
  | .timeEnd => 5
  | .streamStalled => 6
  | .linkError _ => 7

/-- The subject of a notice, 2 bytes (R199). -/
def NoticeBody.subject : NoticeBody → Payload
  | .fired h _ _ => handleBytes h
  | .ended h _ => handleBytes h
  | .truncated n => [0, BitVec.ofNat 8 n.val]
  | .triggerMiss k _ => [0, BitVec.ofNat 8 k.val]
  | _ => [0, 0]

/-- The detail of a notice (R199). -/
def NoticeBody.detail : NoticeBody → Byte
  | .ready c => c.code
  | .fired _ st _ => st.code
  | .ended _ r => r.code
  | .triggerMiss _ d => d.code
  | .linkError d => d.code
  | _ => 0

/-- The ordinal of a notice; 0 for every kind but FIRED (R199). -/
def NoticeBody.ordinal : NoticeBody → BitVec 32
  | .fired _ _ o => o
  | _ => 0

/-- The payload of a NOTICE frame, 18 bytes (R199). -/
def noticeBytes (n : Notice) : Payload :=
  [n.body.code] ++ be 6 n.time ++ n.body.subject ++ [n.body.detail] ++ be 4 n.body.ordinal.toNat
    ++ optBytes n.label ++ optBytes n.lostBefore

/-- The NOTICE frame of a record: tag 0, kind 0xF0 (R188, R199). -/
def noticeFrame (n : Notice) : Frame := ⟨0, kindNotice, noticeBytes n⟩

/-- A reply's kind: bit 7 of the command's kind set (R165, R196). -/
def replyKind (kind : Byte) : Byte := kind ||| 0x80

/-! ## The check and the frame (R185, R188, R179) -/

/-- One bit fed into the check register (R185). -/
def crcBit (reg : BitVec 16) (bit : Bool) : BitVec 16 :=
  if reg.msb ≠ bit then (reg <<< 1) ^^^ 0x1021 else reg <<< 1

/-- One byte fed into the check register, most significant bit first (R185). -/
def crcByte (reg : BitVec 16) (b : Byte) : BitVec 16 :=
  [7, 6, 5, 4, 3, 2, 1, 0].foldl (fun r i => crcBit r (b.getLsbD i)) reg

/-- The check of a run of bytes, from 0xFFFF (R185). -/
def crcOf (p : Payload) : BitVec 16 := p.foldl crcByte 0xFFFF

/-- The SYNC byte (R182). -/
def syncByte : Byte := 0xC3

/-- The bytes of a frame as the transmitter sends them (R188). -/
def frameBytes (f : Frame) : Payload :=
  let covered := [BitVec.ofNat 8 f.payload.length, f.tag, f.kind] ++ f.payload
  syncByte :: (covered ++ be 2 (crcOf covered).toNat)

/-- The ten bit times of a character on the line: start bit LOW, eight data bits least significant
first, stop bit HIGH (R179). -/
def charLevels (b : Byte) : List Level :=
  .low :: ([0, 1, 2, 3, 4, 5, 6, 7].map (fun i => if b.getLsbD i then Level.high else .low)
    ++ [.high])

/-- The levels TXD takes while a frame is sent, one a bit time, with no gap inside (R179, R188). -/
def frameLevels (f : Frame) : List Level := (frameBytes f).flatMap charLevels

/-- The rate code that the straps RATE1 and RATE0 select (R179). -/
def rateCode (rate1 rate0 : Level) : BitVec 2 :=
  match rate1, rate0 with
  | .low, .low => 0
  | .low, .high => 1
  | .high, .low => 2
  | .high, .high => 3

end Sys2Proof.Machine
end

