-- ==== Sys2Proof/Machine/Flags.lean ====
section
/-! DEFINITION. The statuses, flags and classes the part computes: a firing's status (R31), when a
firing is reported (R35), a measurement's value and OVER flag (R77), a result's class (R93), and
which edges a channel selects (R70, R71). -/

namespace Sys2Proof.Machine

/-- What a target answers to a firing's effect (R31). -/
inductive Answer where
  | applied
  | suppressed
  | busy
deriving DecidableEq, Repr

/-- The firing status: SUPPRESSED and BUSY take precedence over LATE (R31). -/
def firingStatus (a : Answer) (lateFlag : Bool) : FiringStatus :=
  match a with
  | .suppressed => .suppressed
  | .busy => .busy
  | .applied => if lateFlag then .late else .normal

/-- Whether a firing with this status is a source event when its record has a label (R32). -/
def FiringStatus.isSource : FiringStatus → Bool
  | .normal | .late => true
  | .suppressed | .busy => false

/-- Whether a report policy calls for a FIRED notice at this ordinal; 0 counts as a multiple of n
(R35). -/
def ReportPolicy.reports (p : ReportPolicy) (ordinal : BitVec 32) : Bool :=
  match p with
  | .none | .last => false
  | .each => true
  | .every n => ordinal.toNat % n == 0

/-- Whether a report policy gives an end notice, and a pulse's notify flag (R35, R46). -/
def ReportPolicy.notifies : ReportPolicy → Bool
  | .none => false
  | .each | .last | .every _ => true

/-- The largest measurement value, 4,294,967,295 (R77). -/
def maxMeasure : Nat := 2 ^ 32 - 1

/-- A WIDTH or PERIOD value and its OVER flag, from the completing stamp u and the reference r
(R77). -/
def measure (u r : Time) : BitVec 32 × Bool :=
  if u < r then (0, true)
  else if u - r ≤ maxMeasure then (BitVec.ofNat 32 (u - r), false)
  else (BitVec.ofNat 32 maxMeasure, true)

/-- A result's class against a window, both bounds inside (R93). -/
def classify (low high : Nat) (result : BitVec 12) : ZoneClass :=
  if result.toNat < low then .below else if high < result.toNat then .above else .inside

/-- The direction of a transition to a level (R70). -/
def directionTo : Level → Polarity
  | .high => .rising
  | .low => .falling

/-- The level from which the selected edge departs (R71). BOTH has none and is never primed (R72). -/
def EdgeSelection.preceding : EdgeSelection → Level
  | .rising => .low
  | .high => .low
  | .falling => .high
  | .low => .high
  | .both => .low

/-- Whether a qualified transition is a selected edge of an EDGE or PERIOD channel (R70). -/
def EdgeSelection.selects (e : EdgeSelection) (d : Polarity) : Bool :=
  match e, d with
  | .rising, .rising => true
  | .falling, .falling => true
  | .both, _ => true
  | _, _ => false

/-- Whether a qualified transition is the leading edge of a WIDTH channel's pulse; otherwise it is
the trailing edge (R70). -/
def EdgeSelection.leads (e : EdgeSelection) (d : Polarity) : Bool :=
  match e, d with
  | .high, .rising => true
  | .low, .falling => true
  | _, _ => false

end Sys2Proof.Machine
end

