-- ==== Sys2Proof/Machine/Ops.lean ====
section
/-! DEFINITION. The operations the blocks share: offering a notice and taking it, the reply slots, the
transmitter's boundary, the claims that end a step, the await list's answers, the Action Table's
admissions and removals, the effects a firing has on its target, and the Stamp Queue's and report
stream's own operations. Every meaning is written over these. -/

namespace Sys2Proof.Machine

/-! ## The Notice Queue (R146 to R148) -/

/-- Offers a notice: it waits behind the offers made before it until the Notice Queue takes it
(R146). -/
def offerNotice (body : NoticeBody) (time : Time) (label : Option Label) (s : State) : State :=
  s.withOffered (s.offered ++ [⟨body, time, label⟩])

/-- The Notice Queue takes an offer: admitted behind the others with the lost count, when that is not
0, as its lost-before; or, with 32 records standing, dropped and counted twice (R147, R148). An
admission tells the transmitter (R189). -/
def admitNotice (o : NoticeOffer) (s : State) : State :=
  let q := s.notices
  if q.queue.length < Config.noticeCapacity then
    let lostBefore := if q.lost = 0 then none else some q.lost
    (s.withNotices { q with queue := q.queue ++ [⟨o.body, o.time, o.label, lostBefore⟩]
                            lost := 0 }).withTx { s.tx with told := true }
  else s.withNotices { q with lost := satInc q.lost, dropped := satInc q.dropped }

/-- Takes offers one after another. -/
def admitAll : List NoticeOffer → State → State
  | [], s => s
  | o :: os, s => admitAll os (admitNotice o s)

/-- The Notice Queue takes every offer that waits, in the order made. -/
def takeOffers (s : State) : State := admitAll s.offered (s.withOffered [])

/-- The block that offers a notice (section 8.3). TRUNCATED comes from its line, a block of its own: a
DESIGN CHOICE (notes/assumptions/19.md). -/
def NoticeBody.block : NoticeBody → NoticeBlock
  | .ready _ => .reset
  | .fired _ _ _ | .ended _ _ => .actionTable
  | .truncated n => .outputLine n
  | .triggerMiss _ _ => .triggerTable
  | .timeEnd => .timebase
  | .streamStalled => .reportStream
  | .linkError .tag0 => .commandBlock
  | .linkError .length | .linkError .gap | .linkError .check => .linkReceiver

/-- Whether a notice is one that a tick makes. -/
def NoticeBody.ofTick : NoticeBody → Bool
  | .fired _ _ _ | .truncated _ | .timeEnd | .ended _ .done | .ended _ .range => true
  | .ended _ .cancelled | .ended _ .skipped | .ready _ | .triggerMiss _ _ | .streamStalled
  | .linkError _ => false

/-- Whether two offers are notices of one tick, which stand in the order of the tick (R13, R146). Ticks
are told apart by their values: two ticks of one value, with a SET_TIME back or a reset between them and
the notices of both still waiting, count as one, so these notices keep the order made, also where
different blocks offer them. The spec fixes no order there, and keeping one is a DESIGN CHOICE
(notes/assumptions/19.md). -/
def NoticeOffer.sameTick (a b : NoticeOffer) : Bool :=
  a.body.ofTick && b.body.ofTick && decide (a.time = b.time)

/-- The offer of a block that the Notice Queue may take: the oldest one of the block that waits, as long
as no notice made before it in the same tick waits still (R13, R146). -/
def nextOffer (b : NoticeBlock) : List NoticeOffer → Option NoticeOffer
  | [] => none
  | o :: os =>
      if o.body.block = b then some o else (nextOffer b os).filter (fun p => !o.sameTick p)

/-- The Notice Queue takes a block's next offer, when there is one. -/
def takeNextOffer (b : NoticeBlock) (s : State) : State :=
  match nextOffer b s.offered with
  | none => s
  | some o => admitNotice o (s.withOffered (s.offered.erase o))

/-! ## Reply slots and replies (R159, R164, R165) -/

/-- Every reply slot, in number order. -/
def allReplySlots : List (Fin 16) := List.finRange 16

/-- The lowest-numbered FREE reply slot, when one is FREE. Which FREE slot is taken is the model's
choice (notes/assumptions/7.md): no reply, count or pin shows a slot's number. -/
def freeReplySlot (s : State) : Option (Fin 16) :=
  allReplySlots.find? (fun i => s.cmd.slots[i] = .free)

/-- Fills a slot with a reply; it joins the end of the reply queue, which tells the transmitter
(R159, R189). -/
def fillSlot (i : Fin 16) (r : Reply) (s : State) : State :=
  (s.withCmd { s.cmd with slots := s.cmd.slots.set i (.filled r)
                          replyQueue := s.cmd.replyQueue ++ [i] }).withTx { s.tx with told := true }

/-- The reply to a command: bit 7 of its kind, its tag, the status and the fields (R165). -/
def replyTo (c : QueuedCommand) (st : Status) (fields : Payload) : Reply :=
  ⟨replyKind c.kind, c.tag, st.code :: fields⟩

/-- Replaces the progress of the oldest command's execution. -/
def setProgress (p : Progress) (s : State) : State := s.withCmd { s.cmd with progress := p }

/-- A command's rule is complete: its reply is made, to fill its slot in a claim of its own (R164
steps 2 and 3). -/
def answer (c : QueuedCommand) (st : Status) (fields : Payload) (s : State) : State :=
  setProgress (.replying (replyTo c st fields)) s

/-- The reply of an await entry (R168, R169, R173). -/
def awaitReply (a : AwaitEntry) (st : Status) (fields : Payload) : Reply :=
  ⟨replyKind kindAwait, a.tag, st.code :: fields⟩

/-- Answers await entries one after the other (R168, R169, R173). -/
def answerEntries (st : Status) (fields : Payload) : List AwaitEntry → State → State
  | [], s => s
  | a :: rest, s => answerEntries st fields rest (fillSlot a.slot (awaitReply a st fields) s)

/-- A removal report to the await list: every entry on the handle is answered OK with the handle and
the end reason, in list order, and leaves (R168). -/
def answerAwaits (h : Handle) (reason : EndReason) (s : State) : State :=
  let s' := answerEntries .ok (handleBytes h ++ [reason.code])
    (s.cmd.awaits.filter (fun a => a.handle = h)) s
  s'.withCmd { s'.cmd with awaits := s.cmd.awaits.filter (fun a => a.handle ≠ h) }

/-- Tells the await list of a removal: the report waits behind those made before it until the await list
takes it in a claim of its own (R34, R168). -/
def reportToAwaits (h : Handle) (reason : EndReason) (s : State) : State :=
  s.withRemovals (s.removals ++ [⟨h, reason⟩])

/-- The await list takes removal reports one after another. -/
def answerReports : List RemovalReport → State → State
  | [], s => s
  | x :: xs, s => answerReports xs (answerAwaits x.handle x.reason s)

/-- The await list takes every removal report that waits, in the order made (R168). -/
def takeRemovals (s : State) : State := answerReports s.removals (s.withRemovals [])

/-- The await list takes the oldest removal report that waits, when there is one (R168). -/
def takeRemoval (s : State) : State :=
  match s.removals with
  | [] => s
  | x :: xs => answerAwaits x.handle x.reason (s.withRemovals xs)

/-- The end of a command's execution: the reply made fills the slot of the oldest command, which
leaves the command queue, in one claim (R164 step 3). The await list takes the reports of the
command's removals before that (R168). With no reply made nothing is filled. -/
def fillMade (s : State) : State :=
  match s.cmd.progress, s.cmd.queue with
  | .replying r, c :: _ =>
      let s := fillSlot c.slot r (takeRemovals s)
      s.withCmd { s.cmd with queue := s.cmd.queue.tail, progress := .notStarted }
  | .replying _, [] | .notStarted, _ | .reading _, _ => s

/-- What is left of an execution after a command's rule: nothing in this step, or the filling of the
reply that the rule made (R164). -/
def goOn (go : Extent) (s : State) : State :=
  match go with
  | .oneClaim => s
  | .toReply => fillMade s

/-! ## The report stream: eligibility, forming, resending, reversion -/

/-- Whether an entry is WAITING. -/
def StampEntry.isWaiting (e : StampEntry) : Bool := e.state = .waiting

/-- The WAITING entries, oldest first. -/
def waitingEntries (s : State) : List StampEntry := s.stamps.entries.filter StampEntry.isWaiting

/-- Whether a new report is eligible (R132). -/
def eligible (s : State) : Bool :=
  decide (s.stream.state = .on) && decide (s.stream.window.length < Config.windowCapacity)
    && match waitingEntries s with
       | [] => false
       | e :: rest =>
           decide (s.stream.batch ≤ (e :: rest).length)
             || decide (e.since + s.stream.hold * Config.microsPerMilli ≤ s.now)

/-- The stream tells the transmitter that a report is eligible (R132, R189). -/
def tellIfEligible (s : State) : State :=
  if eligible s then s.withTx { s.tx with told := true } else s

/-- The sequence number after this one: 255 is followed by 1 (R134). -/
def nextSequenceAfter (b : Byte) : Byte := if b = 255 then 1 else b + 1

/-- Makes the first n WAITING entries IN_FLIGHT with a sequence number (R133 step 3). -/
def markInFlight (sequence : Byte) : Nat → List StampEntry → List StampEntry
  | 0, es => es
  | _ + 1, [] => []
  | n + 1, e :: es =>
      if e.isWaiting then { e with state := .inFlight sequence } :: markInFlight sequence n es
      else e :: markInFlight sequence (n + 1) es

/-- The report a new forming makes: the next number and the oldest WAITING entries, up to the batch
(R133 steps 1 and 2). -/
def nextReport (s : State) : Report where
  sequence := s.stream.nextSequence
  contents := ((waitingEntries s).take s.stream.batch).map StampEntry.content
  marked := false

/-- Forms the next report in one claim (R133). -/
def formReport (s : State) : State :=
  let st := s.stream
  (s.withStamps { s.stamps with
      entries := markInFlight st.nextSequence st.batch s.stamps.entries }).withStream
    { st with window := st.window ++ [nextReport s], nextSequence := nextSequenceAfter st.nextSequence }

/-- The window with the mark of its oldest marked report cleared (R138). -/
def clearFirstMark : List Report → List Report
  | [] => []
  | r :: rs => if r.marked then { r with marked := false } :: rs else r :: clearFirstMark rs

/-- An entry put back to WAITING where it stands (R128). -/
def StampEntry.revert (e : StampEntry) : StampEntry := { e with state := .waiting }

/-- A reversion, with the state the stream enters (R128). -/
def revertStream (entered : StreamState) (s : State) : State :=
  (s.withStamps { s.stamps with entries := s.stamps.entries.map StampEntry.revert }).withStream
    { s.stream with state := entered, window := [], timer := none, retryCount := 0 }

/-! ## The transmitter's boundary (R189, R191) -/

/-- The transmitter begins a frame (R188). -/
def beginFrame (src : FrameSource) (f : Frame) (s : State) : State :=
  s.withTx { s.tx with state := .sending src f }

/-- The transmitter finds nothing to send. -/
def idleTx (s : State) : State := s.withTx { s.tx with state := .idle }

/-- The arbiter's second to fourth asks: the oldest notice (R153), the oldest marked report (R138),
a new report (R133). -/
def askNoticeOrReport (s : State) : State :=
  match s.notices.queue with
  | n :: rest =>
      beginFrame .notice (noticeFrame n) (s.withNotices { s.notices with queue := rest })
  | [] =>
      match s.stream.window.find? (fun r => r.marked) with
      | some r =>
          beginFrame (.resend r.sequence) (reportFrame r)
            (s.withStream { s.stream with window := clearFirstMark s.stream.window })
      | none =>
          if eligible s then
            beginFrame (.firstSending (nextReport s).sequence) (reportFrame (nextReport s))
              (formReport s)
          else idleTx s

/-- A frame boundary: the asks in order, the first that hands over contents deciding (R189); while a
soft reset is pending the command block alone is asked (R191). Each ask is a claim on its source, and
no other claim falls between two asks of one boundary, a DESIGN CHOICE (notes/assumptions/5.md). A
slot of the reply queue is FILLED in every state a run reaches (R158); one that is not hands over
nothing. -/
def boundary (s : State) : State :=
  match s.cmd.replyQueue with
  | i :: rest =>
      match s.cmd.slots[i] with
      | .filled r =>
          beginFrame (.reply i) ⟨r.tag, r.kind, r.payload⟩
            (s.withCmd { s.cmd with slots := s.cmd.slots.set i (.sending r), replyQueue := rest })
      | _ => idleTx s
  | [] => if s.cmd.resetPending.isSome then idleTx s else askNoticeOrReport s

/-! ## The end of a step (R146, R189) -/

/-- An IDLE transmitter that has been told something takes a boundary (R189). -/
def answerTelling (s : State) : State :=
  if s.tx.told ∧ s.tx.state = .idle then boundary (s.withTx { s.tx with told := false }) else s

/-- One claim of the end of a step. -/
def takeEndClaim (c : EndClaim) (s : State) : State :=
  match c with
  | .offer b => takeNextOffer b s
  | .offers => takeOffers s
  | .removal => takeRemoval s
  | .removals => takeRemovals s
  | .boundary => answerTelling s

/-- The claims of the end of a step, one after another. -/
def takeEndClaims : List EndClaim → State → State
  | [], s => s
  | c :: cs, s => takeEndClaims cs (takeEndClaim c s)

/-- The usual ending of a step: the await list takes every removal report and the Notice Queue every
offer that waits, each in the order made, and then an idle transmitter takes the boundary it has been
told of. -/
def usualEnding : List EndClaim := [.removals, .offers, .boundary]

/-- A telling that finds the transmitter not IDLE calls for no boundary of its own (R189). -/
def dropTelling (s : State) : State :=
  if s.tx.state = .idle then s else s.withTx { s.tx with told := false }

/-- Ends a step with the claims that its ending names, or with the usual ones, and then the removal
reports that these leave: offers and a boundary that an ending leaves out wait for a later step, so
that other claims may fall before them, and a boundary may fall before the answers to awaits (R146,
R151, R155, R192, R194). What an ending can name, that its claims come after the step's own, and that
the removal reports are all taken within the step, is the model's (notes/assumptions/5.md,
notes/assumptions/19.md). -/
def settle (s : State) : State :=
  dropTelling (takeRemovals
    (takeEndClaims (s.endings.headD usualEnding) (s.withEndings s.endings.tail)))

/-- A taken step: the next state, after the claims that end the step. -/
def finish (s : State) : Host.Outcome State Fault Refusal := .next (settle s)

/-- A step that does not take place leaves the state as it is (notes/assumptions/4.md). -/
def noStep (s : State) : Host.Outcome State Fault Refusal := .next s

/-- With no command or event waiting a microsecond passes on the part's time reference, and the step
ends as any other; while the RESET pin is held active no block takes a claim, and the reference alone
moves (R176; notes/assumptions/11.md). -/
def passTime (s : State) : Host.Outcome State Fault Refusal :=
  let s := s.withNow (s.now + 1)
  if s.pins.resetActive then .next s else finish s

/-- Takes an event of the part, unless the RESET pin holds the part at reset (R176, R193). -/
def whileUp (s : State) (f : State → Host.Outcome State Fault Refusal) :
    Host.Outcome State Fault Refusal :=
  if s.pins.resetActive then noStep s else f s

/-! ## Execution of a host command (R164) -/

/-- Whether a TRIGGER_CLEAR with CANCEL is under execution, so that the interpreter starts no other
command (R116, R164). -/
def interpreterBusy (s : State) : Bool :=
  match s.triggers.claim with
  | some (.clearing _ _) => true
  | _ => false

/-- The interpreter carries on the oldest command of the queue when it is the one of this kind and
payload (R164). A reply already made fills its slot; otherwise a payload of the wrong length is
answered BAD_LENGTH, before anything else is looked at; otherwise the command's own rule is
followed, once the claim it hands over can be taken (`ready`). When the oldest command is another
one, or its claim must wait, this step does not take place. -/
def interpretWhen (ready : State → Bool) (kind : Byte) (payload : Payload)
    (rule : QueuedCommand → State → State) (go : Extent) (s : State) :
    Host.Outcome State Fault Refusal :=
  whileUp s fun s =>
    if interpreterBusy s then noStep s
    else
      match s.cmd.queue with
      | [] => noStep s
      | c :: _ =>
          if c.kind ≠ kind then noStep s
          else if c.payload.length = payload.length ∧ c.payload ≠ payload then noStep s
          else
            match s.cmd.progress with
            | .replying _ => finish (fillMade s)
            | .notStarted | .reading _ =>
                if c.payload.length ≠ payload.length then
                  finish (goOn go (answer c .badLength [] s))
                else if ready s then finish (goOn go (rule c s))
                else noStep s

/-- A command whose claim is taken at once. -/
def interpret (kind : Byte) (payload : Payload) (rule : QueuedCommand → State → State)
    (go : Extent) (s : State) : Host.Outcome State Fault Refusal :=
  interpretWhen (fun _ => true) kind payload rule go s

/-! ## Time reference -/

/-- The reference reaches a moment, if it has not passed it (notes/assumptions/3.md). -/
def reach (m : Moment) (s : State) : State := s.withNow (max s.now m)

/-! ## Output lines (R49 to R54, R56, R61) -/

/-- A line's active level (R46). -/
def OutputLine.active (l : OutputLine) : Level := l.idle.flip

/-- A pulse's end: the idle level, and no pulse (R53). -/
def OutputLine.endPulse (l : OutputLine) : OutputLine := { l with level := l.idle, pulse := none }

/-- A tick to T ends the pulse whose end tick is T (R53). -/
def OutputLine.atTick (t : Time) (l : OutputLine) : OutputLine :=
  match l.pulse with
  | some p => if p.endTick = t then l.endPulse else l
  | none => l

/-- A SET_TIME ends the pulse whose end tick is at or before the new value (R56). -/
def OutputLine.atNewValue (v : Time) (l : OutputLine) : OutputLine :=
  match l.pulse with
  | some p => if p.endTick ≤ v then l.endPulse else l
  | none => l

/-- A release ends a SCHEDULED line's running pulse (R61). -/
def OutputLine.release (l : OutputLine) : OutputLine :=
  if l.mode = .scheduled ∧ l.pulse.isSome then l.endPulse else l

/-- Replaces one line. -/
def setLine (n : Fin 8) (l : OutputLine) (s : State) : State := s.withLines (s.lines.set n l)

/-- Truncation: the running pulse goes, the level stays, and TRUNCATED is offered when its notify
flag is set (R52). -/
def truncate (n : Fin 8) (t : Time) (s : State) : State :=
  match s.lines[n].pulse with
  | none => s
  | some p =>
      let s := if p.notify then offerNotice (.truncated n) t p.label s else s
      setLine n { s.lines[n] with pulse := none } s

/-- What a firing does to a line (R50, R51). -/
inductive LineEffect where
  | set
  | clear
  | toggle
  | pulse (width : Nat) (label : Option Label) (notify : Bool)
deriving DecidableEq, Repr

/-- A line after an effect at tick t, once any running pulse has been truncated (R50, R51). -/
def OutputLine.apply (e : LineEffect) (t : Time) (l : OutputLine) : OutputLine :=
  match e with
  | .set => { l with level := .high }
  | .clear => { l with level := .low }
  | .toggle => { l with level := l.level.flip }
  | .pulse w label notify => { l with level := l.active, pulse := some ⟨t + w, label, notify⟩ }

/-- A firing effect reaches a line: suppressed in DIRECT mode (R49), applied in SCHEDULED mode after
truncating a running pulse (R50 to R52). -/
def lineEffect (n : Fin 8) (e : LineEffect) (t : Time) (s : State) : Answer × State :=
  if s.lines[n].mode = .direct then (.suppressed, s)
  else
    let s := truncate n t s
    (.applied, setLine n (s.lines[n].apply e t) s)

/-! ## The sampler (R90, R91) -/

/-- Replaces one analog input. -/
def setInput (i : Fin 4) (x : AnalogInput) (s : State) : State :=
  s.withSampler { s.sampler with inputs := s.sampler.inputs.set i x }

/-- A SAMPLE firing reaches the sampler: it starts a conversion in IDLE, is suppressed in OFF, and is
busy, with its input's busy-miss count increased, in every other state (R90, R91). -/
def sampleFiring (i : Fin 4) (t : Time) (label : Option Label) (late : Bool) (s : State) :
    Answer × State :=
  match s.sampler.conv with
  | .off => (.suppressed, s)
  | .idle =>
      (.applied, s.withSampler
        { s.sampler with conv := .acquiring ⟨i, t, label, late⟩ (s.now + s.sampler.acquisition) })
  | .acquiring _ _ | .converting _ _ _ | .recovering =>
      (.busy, setInput i { s.sampler.inputs[i] with
                             busyMiss := satInc s.sampler.inputs[i].busyMiss } s)

/-! ## The Action Table (R19 to R21, R26 to R29, R34) -/

/-- Table order: earlier due time first, and among equal due times the earlier admission (R21). -/
def Record.before (a b : Record) : Bool :=
  decide (a.due < b.due) || (decide (a.due = b.due) && decide (a.standing < b.standing))

/-- A record takes its place in table order (R21). -/
def insertRecord (r : Record) : List Record → List Record
  | [] => [r]
  | x :: xs => if r.before x then r :: x :: xs else x :: insertRecord r xs

/-- The records without the one of a handle. -/
def dropHandle (h : Handle) (rs : List Record) : List Record := rs.filter (fun r => r.handle ≠ h)

/-- The live record of a handle, when the handle is live (R20). -/
def findRecord (h : Handle) (s : State) : Option Record :=
  s.table.records.find? (fun r => r.handle = h)

/-- The generation after this one: from 255 it goes to 1 (R20). -/
def nextGeneration (g : Byte) : Byte := if g = 255 then 1 else g + 1

/-- Every slot of the Action Table, in number order. -/
def allTableSlots : List (Fin 64) := List.finRange 64

/-- The lowest-numbered free slot (R19). -/
def freeTableSlot (s : State) : Option (Fin 64) :=
  allTableSlots.find? (fun i => !s.table.records.any (fun r => r.handle.slot = i))

/-- A handle taken out of a slot's live-instance list, if it stands there (R112). -/
def SlotUse.dropInstance (h : Handle) : SlotUse → SlotUse
  | .empty => .empty
  | .defined d st n list => .defined d st n (list.filter (fun x => x ≠ h))

/-- Replaces one trigger slot. -/
def setTriggerSlot (k : Fin 16) (x : TriggerSlot) (s : State) : State :=
  s.withTriggers { s.triggers with slots := s.triggers.slots.set k x }

/-- A removal report to the Trigger Table (R112). -/
def reportRemoval (h : Handle) (o : Origin) (s : State) : State :=
  match o with
  | .host => s
  | .trigger k =>
      setTriggerSlot k { s.triggers.slots[k] with use := s.triggers.slots[k].use.dropInstance h } s

/-- A record leaves the table with an end reason: its slot is freed and its generation advances, its
ENDED notice is offered when its policy is not NONE, the Trigger Table is told, and the removal is
reported to the await list (R20, R34, R36, R168). -/
def removeRecord (r : Record) (reason : EndReason) (time : Time) (s : State) : State :=
  let slot := r.handle.slot
  let s := s.withTable { s.table with
    records := dropHandle r.handle s.table.records
    gens := s.table.gens.set slot (nextGeneration s.table.gens[slot]) }
  let s := if r.body.report.notifies then
      offerNotice (.ended r.handle reason) time r.body.label s else s
  reportToAwaits r.handle reason (reportRemoval r.handle r.origin s)

/-- Removes records one after another with one end reason and time. -/
def removeRecords (reason : EndReason) (time : Time) : List Record → State → State
  | [], s => s
  | r :: rs, s => removeRecords reason time rs (removeRecord r reason time s)

/-- The remaining count at admission (R18). -/
def initialRemaining : Option Repeat → Nat
  | none => 1
  | some r => r.count

/-- Admits a record into a slot, with the slot's present generation and a standing after every
record admitted before it (R27, R21). -/
def admitInto (slot : Fin 64) (body : Template) (due : Time) (lateFlag : Bool) (o : Origin)
    (s : State) : Handle × State :=
  let h : Handle := ⟨s.table.gens[slot], slot⟩
  let r : Record :=
    { handle := h, body := body, due := due, remaining := initialRemaining body.repeats, origin := o
      ordinal := 0, lateFlag := lateFlag, standing := s.table.nextStanding }
  (h, s.withTable { s.table with records := insertRecord r s.table.records
                                 nextStanding := s.table.nextStanding + 1 })

/-- The late check: the due time and late flag a record is admitted with, or none where its policy
is SKIP and it is late. It is not made in STOPPED (R26, R28). -/
def lateCheck (late : LatePolicy) (due : Time) (s : State) : Option (Time × Bool) :=
  if s.time.run = .stopped ∨ s.time.value < due then some (due, false)
  else
    match late with
    | .skip => none
    | .fire => some (s.time.value + 1, true)

/-- What the Action Table answers to a request to admit a record (R28). -/
inductive AdmitAnswer where
  | handle (h : Handle)
  | range
  | tableFull
  | past
deriving DecidableEq, Repr

/-- A plain admission: the range of the due time, room, the late check, in that order (R24 to R28). -/
def plainAdmission (body : Template) (due : Time) (o : Origin) (s : State) : AdmitAnswer × State :=
  if Config.maxTime < due then (.range, s)
  else
    match freeTableSlot s with
    | none => (.tableFull, s)
    | some slot =>
        match lateCheck body.late due s with
        | none => (.past, s)
        | some (due, flag) =>
            let (h, s) := admitInto slot body due flag o s
            (.handle h, s)

/-- A replacement admission that names a live instance: the range and late checks first, then the
named record leaves CANCELLED and the new one takes its slot; with the named handle no longer
live, a plain admission (R29). -/
def replaceAdmission (old : Handle) (body : Template) (due : Time) (o : Origin) (s : State) :
    AdmitAnswer × State :=
  match findRecord old s with
  | none => plainAdmission body due o s
  | some r =>
      if Config.maxTime < due then (.range, s)
      else
        match lateCheck body.late due s with
        | none => (.past, s)
        | some (due, flag) =>
            let s := removeRecord r .cancelled s.time.value s
            let (h, s) := admitInto old.slot body due flag o s
            (.handle h, s)

/-! ## Hand-overs to the Trigger Table and the Stamp Queue -/

/-- Hands a source event over to the Trigger Table (R104). -/
def offerEvent (e : SourceEvent) (s : State) : State :=
  s.withHanded { s.handed with events := s.handed.events ++ [e] }

/-- Hands an offer over to the Stamp Queue (R79, R94). -/
def offerStamp (o : StampOffer) (s : State) : State :=
  s.withHanded { s.handed with offers := s.handed.offers ++ [o] }

/-! ## The gate (R4) -/

/-- Whether the gate is open: gating disabled, or GATE at the polarity's level (R4). -/
def gateOpen (s : State) : Bool := !s.time.gating || decide (s.pins.gate = s.time.polarity)

/-- Records the level a step finds GATE at. -/
def readGate (level : Level) (s : State) : State := s.withPins { s.pins with gate := level }

/-! ## The late walk (R37) -/

/-- One late record of the walk that begins the run at v (R37). -/
def walkRecord (v : Time) (r : Record) (s : State) : State :=
  match r.body.late with
  | .skip => removeRecord r .skipped v s
  | .fire =>
      let again := { r with due := v + 1, lateFlag := true }
      s.withTable { s.table with
        records := insertRecord again (dropHandle r.handle s.table.records) }

/-- Walks records one after another. -/
def walkAll (v : Time) : List Record → State → State
  | [], s => s
  | r :: rs, s => walkAll v rs (walkRecord v r s)

/-- The late walk at START: every record due at or before the value, in table order (R37). -/
def lateWalk (s : State) : State :=
  walkAll s.time.value (s.table.records.filter (fun r => r.due ≤ s.time.value)) s

/-! ## The Stamp Queue (R122, R124, R125) -/

/-- The source of a measurement's loss accounting: a channel or a sampler input (R124). -/
def pendingLoss (m : Measurement) (q : StampQueue) : BitVec 16 :=
  match m with
  | .edge n _ | .width n _ _ | .period n _ _ => q.channelLoss[n]
  | .sample i _ _ _ _ => q.inputLoss[i]

/-- Sets the pending-loss count of a measurement's source (R124, R125). -/
def setPendingLoss (m : Measurement) (x : BitVec 16) (q : StampQueue) : StampQueue :=
  match m with
  | .edge n _ | .width n _ _ | .period n _ _ => { q with channelLoss := q.channelLoss.set n x }
  | .sample i _ _ _ _ => { q with inputLoss := q.inputLoss.set i x }

/-- Takes an offer: admitted WAITING at the end with the source's pending losses, or dropped and
counted when 128 entries stand (R122, R124, R125). -/
def takeOffer (o : StampOffer) (now : Moment) (q : StampQueue) : StampQueue :=
  if q.entries.length < Config.stampCapacity then
    let lost := pendingLoss o.what q
    let lostBefore := if lost = 0 then none else some lost
    setPendingLoss o.what 0
      { q with entries := q.entries ++ [⟨.waiting, ⟨o.what, o.time, lostBefore⟩, now⟩] }
  else
    setPendingLoss o.what (satInc (pendingLoss o.what q)) { q with dropped := satInc q.dropped }

/-- The window up to and with the report of this number, and the reports behind it; none when no
report has it (R140). -/
def splitWindow (sequence : Byte) : List Report → Option (List Report × List Report)
  | [] => none
  | r :: rs =>
      if r.sequence = sequence then some ([r], rs)
      else (splitWindow sequence rs).map (fun p => (r :: p.1, p.2))

/-- Whether an entry is carried by one of these reports. -/
def StampEntry.carriedBy (reports : List Report) (e : StampEntry) : Bool :=
  match e.state with
  | .waiting => false
  | .inFlight q => reports.any (fun r => r.sequence = q)

/-- A moment this many milliseconds from now. -/
def inMillis (ms : Nat) (s : State) : Moment := s.now + ms * Config.microsPerMilli

/-- A stale acknowledgement (R141). -/
def staleAck (s : State) : State := s.withStream { s.stream with stale := satInc s.stream.stale }

/-- Takes an acknowledgement of one sequence number: good, cumulatively, in ON with that number in
the window, after which a report may be eligible (R132, R140); stale otherwise, when nothing but the
stale counter changes (R141). -/
def takeAck (sequence : Byte) (s : State) : State :=
  match s.stream.state with
  | .off | .stalled => staleAck s
  | .on =>
      match splitWindow sequence s.stream.window with
      | none => staleAck s
      | some (acked, rest) =>
          tellIfEligible ((s.withStamps { s.stamps with
              entries := s.stamps.entries.filter (fun e => !e.carriedBy acked) }).withStream
            { s.stream with window := rest, retryCount := 0
                            timer := if rest.isEmpty then none
                                     else some (inMillis s.stream.interval s) })

/-! ## The receive machine (R181 to R187) -/

/-- The receive machine in HUNT with no partial frame, its counts kept, and the receiver's wait for
RXD with them. -/
def Receiver.hunting (r : Receiver) : Receiver :=
  { Receiver.reset with lengthErrors := r.lengthErrors, gapErrors := r.gapErrors
                        checkErrors := r.checkErrors, waitHigh := r.waitHigh }

/-- A link error's count (R187). -/
def Receiver.countError (k : LinkErrorKind) (r : Receiver) : Receiver :=
  match k with
  | .length => { r with lengthErrors := satInc r.lengthErrors }
  | .gap => { r with gapErrors := satInc r.gapErrors }
  | .check => { r with checkErrors := satInc r.checkErrors }
  | .tag0 => r

/-- A LENGTH, GAP or CHECK error, in one claim (R187). -/
def linkError (k : LinkErrorKind) (s : State) : State :=
  offerNotice (.linkError k) s.time.value none (s.withRx (s.rx.countError k).hunting)

/-! ## Acceptance (R160 to R162) -/

/-- Whether a tag is in use (R163). -/
def tagInUse (tag : Byte) (s : State) : Bool :=
  s.cmd.queue.any (fun c => c.tag = tag) || s.cmd.awaits.any (fun a => a.tag = tag)

/-- A frame lost for want of a FREE slot (R161, R162). -/
def loseFrame (s : State) : State :=
  s.withCmd { s.cmd with refusalsLost := satInc s.cmd.refusalsLost }

/-- A refusal at acceptance (R161). -/
def refuseFrame (st : Status) (tag kind : Byte) (s : State) : State :=
  match freeReplySlot s with
  | none => loseFrame s
  | some i =>
      let s := fillSlot i ⟨replyKind kind, tag, [st.code]⟩ s
      s.withCmd { s.cmd with refused := satInc s.cmd.refused }

/-- A frame taken into the command queue (R162). -/
def acceptFrame (tag kind : Byte) (payload : Payload) (s : State) : State :=
  match freeReplySlot s with
  | none => loseFrame s
  | some i =>
      s.withCmd { s.cmd with slots := s.cmd.slots.set i .reserved
                             queue := s.cmd.queue ++ [⟨tag, kind, payload, i⟩]
                             accepted := s.cmd.accepted + 1 }

/-- A frame with tag 0: discarded, counted and reported (R160 row 1). -/
def discardTagZero (s : State) : State :=
  offerNotice (.linkError .tag0) s.time.value none
    (s.withCmd { s.cmd with tagZero := satInc s.cmd.tagZero })

/-- Sorts a good frame by the first row of R160's table that it meets. -/
def sortFrame (tag kind : Byte) (payload : Payload) (s : State) : State :=
  if tag = 0 then discardTagZero s
  else if kind = kindAck then s.withHanded { s.handed with acks := s.handed.acks ++ [payload] }
  else if s.cmd.resetPending.isSome then refuseFrame .aborted tag kind s
  else if kind ∉ commandKinds then refuseFrame .unknownKind tag kind s
  else if Config.commandCapacity ≤ s.cmd.queue.length then refuseFrame .queueFull tag kind s
  else if tagInUse tag s then refuseFrame .dupTag tag kind s
  else acceptFrame tag kind payload s

/-- The receive machine with the gap expiry set afresh, 5 ms from now (R184). -/
def Receiver.heard (now : Moment) (r : Receiver) : Receiver :=
  { r with gapExpiry := some (now + Config.gapMicros) }

/-- The receive machine takes one byte (R182, R183, R186). -/
def takeByte (b : Byte) (s : State) : State :=
  let r := s.rx
  match r.state with
  | .hunt =>
      if b = syncByte then
        s.withRx (({ r.hunting with state := .len, check := 0xFFFF }).heard s.now)
      else s
  | .len =>
      if Config.maxPayload < b.toNat then linkError .length s
      else s.withRx (({ r with state := .tag, length := b.toNat, check := crcByte r.check b }).heard
        s.now)
  | .tag => s.withRx (({ r with state := .kind, tag := b, check := crcByte r.check b }).heard s.now)
  | .kind =>
      s.withRx (({ r with state := if r.length = 0 then .crcHi else .body, kind := b
                          check := crcByte r.check b }).heard s.now)
  | .body =>
      let p := r.payload ++ [b]
      s.withRx (({ r with state := if p.length < r.length then .body else .crcHi, payload := p
                          check := crcByte r.check b }).heard s.now)
  | .crcHi => s.withRx (({ r with state := .crcLo, checkHigh := b }).heard s.now)
  | .crcLo =>
      if r.checkHigh ++ b = r.check then sortFrame r.tag r.kind r.payload (s.withRx r.hunting)
      else linkError .check s

/-- Whether a character begins: after a stop bit sampled LOW, and after a device reset, it does not
until RXD has stood HIGH, since it begins with a fall (R180, R193). -/
def Receiver.begins (c : RxChar) (r : Receiver) : Bool := !r.waitHigh || c.rose

/-- Whether a character gives a byte: it begins, and its start bit is LOW at its middle (R180). -/
def Receiver.hears (c : RxChar) (r : Receiver) : Bool := r.begins c && decide (c.startMid = .low)

/-- The receiver after a stop bit of this level (R180). -/
def stopBit (level : Level) (s : State) : State :=
  s.withRx { s.rx with waitHigh := decide (level = .low) }

/-- A character on RXD. Where none begins nothing changes; a start bit found HIGH at its middle is
noise and gives no byte; otherwise the byte is the data bits as sampled, whatever the stop bit, and
after a stop bit sampled LOW the receiver waits for RXD to be HIGH again (R180). -/
def takeChar (c : RxChar) (s : State) : State :=
  if s.rx.hears c then takeByte c.data (stopBit c.stop s)
  else if s.rx.begins c then stopBit .high s
  else s

end Sys2Proof.Machine
end

