-- ==== Sys2Proof/Machine/Actions.lean ====
section
/-! DEFINITION. The Action Table's commands: SCHEDULE, CANCEL, CANCEL_LINE and LIST_ACTIONS
(02_the_action_table). -/

namespace Sys2Proof.Machine

/-- The status of a SCHEDULE that the table does not admit, and of one it does (R24 to R27). -/
def AdmitAnswer.status : AdmitAnswer → Status
  | .handle _ => .ok
  | .range => .range
  | .tableFull => .tableFull
  | .past => .past

/-- The handle of an admission in SCHEDULE's reply (R27). -/
def AdmitAnswer.fields : AdmitAnswer → Payload
  | .handle h => handleBytes h
  | .range | .tableFull | .past => []

/-- The due time of a SCHEDULE: the due value, or the timebase value plus it (R24). -/
def dueTime (relative : Bool) (value : BitVec 48) (s : State) : Time :=
  if relative then s.time.value + value.toNat else value.toNat

/-- SCHEDULE: field ranges, the range of the due time, room, and the late check, in that order; then
one record of origin HOST is admitted (R23 to R27). -/
def execSchedule (f : ScheduleFields) (s : State) (go : Extent := .toReply) :
    Host.Outcome State Fault Refusal :=
  interpret kindSchedule (schedulePayload f) (fun c s =>
    match readBody f.action, readDueMode f.dueMode with
    | some body, some relative =>
        let (a, s) := plainAdmission body (dueTime relative f.dueValue s) .host s
        answer c a.status a.fields s
    | _, _ => answer c .badField [] s) go s

/-- CANCEL handle: a live handle's record leaves CANCELLED; one that is not live is answered NO_SUCH
(R39). -/
def execCancel (gen slot : Byte) (s : State) (go : Extent := .toReply) : Host.Outcome State Fault Refusal :=
  interpret kindCancel [gen, slot] (fun c s =>
    match readHandle gen slot with
    | none => answer c .badField [] s
    | some h =>
        match findRecord h s with
        | none => answer c .noSuch [] s
        | some r => answer c .ok [] (removeRecord r .cancelled s.time.value s)) go s

/-- Whether an action is of kind SET, CLEAR, TOGGLE or PULSE with this line as its target (R40). -/
def Action.onLine (n : Fin 8) : Action → Bool
  | .set m | .clear m | .toggle m | .pulse m _ => m = n
  | .sample _ | .mark => false

/-- The records that CANCEL_LINE removes, in table order (R40). -/
def recordsOnLine (n : Fin 8) (s : State) : List Record :=
  s.table.records.filter (fun r => r.body.action.onLine n)

/-- CANCEL_LINE line, release: every matching record leaves CANCELLED in table order, and with
RELEASE the line is then handed a release (R40, R61). That no claim of another block falls between
the last removal and the release is a DESIGN CHOICE (notes/assumptions/6.md). -/
def execCancelLine (line release : Byte) (s : State) (go : Extent := .toReply) :
    Host.Outcome State Fault Refusal :=
  interpret kindCancelLine [line, release] (fun c s =>
    match readIndex 8 line, readYesNo release with
    | some n, some rel =>
        let hits := recordsOnLine n s
        let s := removeRecords .cancelled s.time.value hits s
        let s := if rel then setLine n s.lines[n].release s else s
        answer c .ok (be 1 hits.length) s
    | _, _ => answer c .badField [] s) go s

/-- The contents of LIST_ACTIONS's reply: total count, records listed, and up to four records from a
position in table order (R41, R196). -/
def listFields (position : Byte) (s : State) : Payload :=
  let listed := (s.table.records.drop position.toNat).take 4
  be 1 s.table.records.length ++ be 1 listed.length ++ listed.flatMap actionRecordBytes

/-- LIST_ACTIONS position replies OK with the listing and changes nothing (R41). -/
def execListActions (position : Byte) (s : State) (go : Extent := .toReply) :
    Host.Outcome State Fault Refusal :=
  interpret kindListActions [position] (fun c s => answer c .ok (listFields position s) s) go s

end Sys2Proof.Machine
end

