-- ==== Sys2Proof/Machine/Firing.lean ====
section
/-! DEFINITION. A source event at the Trigger Table, and a tick with its firings, within which the
Trigger Table may take source events (R30 to R33, R104 to R108, R113). -/

namespace Sys2Proof.Machine

/-! ## Source events (R104 to R108) -/

/-- Replaces the Trigger Table's claim in progress. -/
def setClaim (c : Option TriggerClaim) (s : State) : State :=
  s.withTriggers { s.triggers with claim := c }

/-- The block that offers events of this source (R104). -/
def EventSource.block : EventSource → EventBlock
  | .channel n => .channel n
  | .zone _ _ => .sampler
  | .label _ => .actionTable

/-- The first event of a block among those handed over. -/
def oldestEvent (b : EventBlock) (events : List SourceEvent) : Option SourceEvent :=
  events.find? (fun e => e.source.block = b)

/-- A miss of a slot, counted (R107, R110). -/
def countMiss (k : Fin 16) (s : State) : State :=
  setTriggerSlot k { s.triggers.slots[k] with misses := satInc s.triggers.slots[k].misses } s

/-- Every trigger slot, in number order. -/
def allTriggerSlots : List (Fin 16) := List.finRange 16

/-- Visits slots in ascending number for a source event. A slot that must ask the Action Table hands
its request over and the visit waits there; one at its limit under IGNORE counts a LIMIT miss; the
others ignore the event. With no slot left the claim ends (R104 to R108). -/
def visitSlots (e : SourceEvent) : List (Fin 16) → State → State
  | [], s => setClaim none s
  | k :: ks, s =>
      match s.triggers.slots[k].use with
      | .defined d .armed _ list =>
          if d.source ≠ e.source then visitSlots e ks s
          else if list.length < d.limit then
            setClaim (some (.event e ⟨k, d.template, e.time + d.delay, none⟩)) s
          else
            match d.atLimit with
            | .ignore => visitSlots e ks (countMiss k s)
            | .replaceOldest =>
                setClaim (some (.event e ⟨k, d.template, e.time + d.delay, list.head?⟩)) s
      | .defined _ .paused _ _ | .defined _ .spent _ _ | .empty => visitSlots e ks s

/-- The Trigger Table takes a source event that waits, as one claim (R104). -/
def takeEvent (e : SourceEvent) (s : State) : State :=
  visitSlots e allTriggerSlots
    (s.withHanded { s.handed with events := s.handed.events.erase e })

/-- The Trigger Table takes the oldest event of a block, when there is one and no claim of the Trigger
Table is in progress (R103, R104). -/
def takeBlockEvent (b : EventBlock) (s : State) : State :=
  if s.triggers.claim.isSome then s
  else
    match oldestEvent b s.handed.events with
    | none => s
    | some e => takeEvent e s

/-- The Trigger Table takes the oldest events of these blocks, one after another. -/
def takeBlockEvents : List EventBlock → State → State
  | [], s => s
  | b :: bs, s => takeBlockEvents bs (takeBlockEvent b s)

/-! ## Firing (R30 to R33) -/

/-- Hands a firing's effect to its target (R31). -/
def fireEffect (r : Record) (t : Time) (s : State) : Answer × State :=
  match r.body.action with
  | .set n => lineEffect n .set t s
  | .clear n => lineEffect n .clear t s
  | .toggle n => lineEffect n .toggle t s
  | .pulse n w => lineEffect n (.pulse w r.body.label r.body.report.notifies) t s
  | .sample i => sampleFiring i t r.body.label r.lateFlag s
  | .mark => (.applied, s)

/-- A labelled firing that is NORMAL or LATE is a source event, offered during the tick (R32, R113). -/
def offerLabel (label : Option Label) (st : FiringStatus) (t : Time) (s : State) : State :=
  match label with
  | some l => if st.isSource then offerEvent ⟨.label l, t⟩ s else s
  | none => s

/-- The record that fired at t leaves the table or is re-timed (R33). A record without repeat has
remaining count 1 in every state a run reaches and so leaves DONE. -/
def settleRecord (r : Record) (t : Time) (s : State) : State :=
  let fired := { r with ordinal := r.ordinal + 1, lateFlag := false }
  if r.remaining = 1 then removeRecord fired .done t s
  else
    match r.body.repeats with
    | none => removeRecord fired .done t s
    | some rep =>
        if Config.maxTime < t + rep.period then removeRecord fired .range t s
        else
          let again := { fired with due := t + rep.period, remaining := r.remaining - 1 }
          s.withTable { s.table with
            records := insertRecord again (dropHandle r.handle s.table.records) }

/-- One firing, made whole: effect, ordinal, source event, FIRED notice, and then removal or
re-timing (R31 to R33, R35). The Trigger Table may take source events at once, before the record
leaves the table or after it (R113, R118): those that `taken` names. -/
def fireRecord (taken : TakenEvents) (t : Time) (r : Record) (s : State) : State :=
  let (a, s) := fireEffect r t s
  let st := firingStatus a r.lateFlag
  let s := offerLabel r.body.label st t s
  let s := if r.body.report.reports (r.ordinal + 1) then
      offerNotice (.fired r.handle st (r.ordinal + 1)) t r.body.label s else s
  takeBlockEvents taken.after (settleRecord r t (takeBlockEvents taken.before s))

/-- Fires records one after another, with the source events taken at each firing; past the end of that
list none are. -/
def fireAll (t : Time) : List Record → List TakenEvents → State → State
  | [], _, s => s
  | r :: rs, taken, s => fireAll t rs taken.tail (fireRecord (taken.headD .none) t r s)

/-- The records due at t, in table order (R30). -/
def dueAt (t : Time) (s : State) : List Record := s.table.records.filter (fun r => r.due = t)

/-- A tick: the value goes up by one; each line ends a pulse due then; the records due then fire in
table order; and at 2^48 - 1 the timebase stops and offers TIME_END (R3, R13, R30, R53). Of the
other blocks' claims the Trigger Table's on source events alone fall inside a tick, a DESIGN CHOICE
(notes/assumptions/18.md). -/
def tick (taken : List TakenEvents) (s : State) : State :=
  let t := s.time.value + 1
  let s := s.withTime { s.time with value := t }
  let s := s.withLines (mapAll (OutputLine.atTick t) s.lines)
  let s := fireAll t (dueAt t s) taken s
  if t = Config.maxTime then
    offerNotice .timeEnd t none (s.withTime { s.time with run := .stopped })
  else s

end Sys2Proof.Machine
end

