-- ==== Sys2Proof/Machine/Clock.lean ====
section
/-! DEFINITION. The timebase: CLOCK, SET_TIME, START, STOP, GATE, GET_TIME, a source period and a
tick-clock period (01_the_timebase). -/

namespace Sys2Proof.Machine

/-- A new clock setting begins a tick-clock period of its own (R7, R68): a sample taken ahead of the end
of the old one is none of its samples, and a sample still due of a period that has ended stays due, a
DESIGN CHOICE (notes/assumptions/13.md). -/
def Sampling.atClock : Sampling → Sampling
  | .inStep | .ahead => .inStep
  | .due => .due

/-- A channel as a new clock setting finds it. -/
def Channel.atClock (ch : Channel) : Channel := { ch with sampling := ch.sampling.atClock }

/-- CLOCK source, prescaler: field checks, then STATE unless STOPPED, then the new setting with the
prescaler count at 0; the channels go on with the periods of the new clock (R7). -/
def execClock (source prescaler : Byte) (s : State) (go : Extent := .toReply) :
    Host.Outcome State Fault Refusal :=
  interpret kindClock [source, prescaler] (fun c s =>
    match readSource source, readPrescaler prescaler with
    | some src, some p =>
        if s.time.run ≠ .stopped then answer c .state [] s
        else
          let s := s.withTime { s.time with source := src, prescaler := p, count := 0 }
          answer c .ok [] (s.withChannels (mapAll Channel.atClock s.channels))
    | _, _ => answer c .badField [] s) go s

/-- Whether some channel's sample still stands between the two values that its stamp may carry: it is due
of a period that was a tick, or it was taken ahead of a period that may be one (R68). -/
def sampleHoldsValue (s : State) : Bool :=
  s.channels.toList.any fun ch =>
    decide (ch.sampling = .ahead ∨ ch.sampling = .due ∧ s.time.ticked = true)

/-- SET_TIME value: 2^48 - 1 is refused BAD_FIELD, then STATE unless STOPPED; otherwise the value is
replaced and each line compares it with its running pulse (R8, R56). That no claim of another block
falls between the two is a DESIGN CHOICE (notes/assumptions/6.md). A sample and the tick of its period
come together, and its stamp is the value before that tick or after it (R68): a SET_TIME that would
replace the value waits until no sample stands between the two (notes/assumptions/13.md). -/
def execSetTime (value : BitVec 48) (s : State) (go : Extent := .toReply) : Host.Outcome State Fault Refusal :=
  interpretWhen (fun s => decide (value.toNat = Config.maxTime ∨ s.time.run ≠ .stopped)
      || !sampleHoldsValue s)
    kindSetTime (be 6 value.toNat) (fun c s =>
    if value.toNat = Config.maxTime then answer c .badField [] s
    else if s.time.run ≠ .stopped then answer c .state [] s
    else
      let s := s.withTime { s.time with value := value.toNat }
      answer c .ok [] (s.withLines (mapAll (OutputLine.atNewValue value.toNat) s.lines))) go s

/-- START: refused STATE in a run and RANGE at the end of time; otherwise RUNNING, or HELD with the
gate closed, and then the late walk (R9, R10, R37). No claim on the Action Table falls between the run
state's change and the walk, DEDUCED from R10, R22 and R42 (notes/assumptions/6.md), and no claim of
another block between two removals of the walk, a DESIGN CHOICE (notes/assumptions/18.md). -/
def execStart (gatePin : Level) (s : State) (go : Extent := .toReply) : Host.Outcome State Fault Refusal :=
  interpret kindStart [] (fun c s =>
    if s.time.run ≠ .stopped then answer c .state [] s
    else if Config.maxTime ≤ s.time.value then answer c .range [] s
    else
      let s := readGate gatePin s
      let run := if gateOpen s then RunState.running else .held
      let s := lateWalk (s.withTime { s.time with run := run })
      answer c .ok [run.code] s) go s

/-- STOP: a run ends with the value where it is; in STOPPED nothing changes; OK in every case
(R11). -/
def execStop (s : State) (go : Extent := .toReply) : Host.Outcome State Fault Refusal :=
  interpret kindStop [] (fun c s =>
    answer c .ok [] (s.withTime { s.time with run := .stopped })) go s

/-- The run state re-evaluated against the present gate (R6). -/
def regate (s : State) : RunState :=
  match s.time.run with
  | .stopped => .stopped
  | .running | .held => if gateOpen s then .running else .held

/-- GATE gating, polarity: the settings are replaced and the run state re-evaluated at once against
the present level of the pin (R6). -/
def execGate (gating polarity : Byte) (gatePin : Level) (s : State) (go : Extent := .toReply) :
    Host.Outcome State Fault Refusal :=
  interpret kindGate [gating, polarity] (fun c s =>
    match readYesNo gating, readLevel polarity with
    | some g, some p =>
        let s := readGate gatePin s
        let s := s.withTime { s.time with gating := g, polarity := p }
        let run := regate s
        answer c .ok [run.code] (s.withTime { s.time with run := run })
    | _, _ => answer c .badField [] s) go s

/-- The contents of GET_TIME's reply (R12, R196). -/
def timeFields (s : State) : Payload :=
  be 6 s.time.value ++ [s.time.run.code, s.time.source.code]
    ++ be 1 s.time.prescaler ++ [boolCode s.time.gating, levelCode s.time.polarity]

/-- GET_TIME replies OK with the timebase as it stands and changes nothing (R12). -/
def execGetTime (s : State) (go : Extent := .toReply) : Host.Outcome State Fault Refusal :=
  interpret kindGetTime [] (fun c s => answer c .ok (timeFields s) s) go s

/-- Whether the next source period completes a tick-clock period (R1). -/
def periodEnds (s : State) : Bool := decide (s.time.prescaler ≤ s.time.count + 1)

/-- Whether some channel has not yet taken its sample of the last tick-clock period (R68). -/
def samplesDue (s : State) : Bool := s.channels.toList.any (fun ch => ch.sampling = .due)

/-- A source period that completes no tick-clock period: the prescaler count goes up by one (R1). At
the last source period of a tick-clock period, and while a sample of the last tick-clock period is
still to come (R68), this step does not take place. -/
def execSourcePeriod (s : State) : Host.Outcome State Fault Refusal :=
  whileUp s fun s =>
    if periodEnds s || samplesDue s then noStep s
    else finish (s.withTime { s.time with count := s.time.count + 1 })

/-- A tick-clock period taken by the timebase with the gate as GATE shows it, a tick or not (R3, R5). -/
def takePeriod (taken : List TakenEvents) (s : State) : State :=
  match s.time.run with
  | .stopped => s.withTime { s.time with ticked := false }
  | .running | .held =>
      if gateOpen s then tick taken (s.withTime { s.time with run := .running, ticked := true })
      else s.withTime { s.time with run := .held, ticked := false }

/-- A channel at a tick-clock period: one that has not sampled ahead and is not OFF is to take its
sample of the period (R68). -/
def Channel.atPeriod (ch : Channel) : Channel :=
  { ch with sampling :=
      if ch.sampling = .ahead ∨ ch.run = .off then Sampling.inStep else .due }

/-- A source period that completes a tick-clock period: the prescaler count returns to 0, GATE is
sampled, the period is a tick or not as R5's table says, and each channel that samples is to take
its sample of the period unless it has (R1, R3, R5, R68). While source periods of the tick-clock
period, or samples of the one before, are still to come this step does not take place. The Trigger
Table takes the source events that `taken` names at the tick's firings (R113). -/
def execTickClockPeriod (gatePin : Level) (s : State) (taken : List TakenEvents := []) :
    Host.Outcome State Fault Refusal :=
  whileUp s fun s =>
    if !periodEnds s || samplesDue s then noStep s
    else
      let s := s.withChannels (mapAll Channel.atPeriod s.channels)
      finish (takePeriod taken (readGate gatePin (s.withTime { s.time with count := 0 })))

end Sys2Proof.Machine
end

