-- ==== Sys2Proof/Machine/Channels.lean ====
section
/-! DEFINITION. The input channels: CHANNEL, CHANNEL_OFF, CHANNEL_STATUS, and a channel's sample with
its filter, priming, division and events (04_input_channels). -/

namespace Sys2Proof.Machine

/-- Replaces one channel. -/
def setChannel (n : Fin 8) (c : Channel) (s : State) : State :=
  s.withChannels (s.channels.set n c)

/-- Records the level a step finds an IN pin at. -/
def readInput (n : Fin 8) (level : Level) (s : State) : State :=
  s.withPins { s.pins with inputs := s.pins.inputs.set n level }

/-- The run state a CHANNEL enters: OFF for mode OFF, ARMED at the pin's level for BOTH, PRIMING
otherwise (R71, R72, R82). With BOTH the settled level is the pin's at execution, as R72 says, also
where the pin changes after CHANNEL and before the next sample: R85's row "CHANNEL first" has it take
the pin as the next samples find it, and following R72 there is a DESIGN CHOICE
(notes/assumptions/21.md). -/
def enteredRun (cfg : ChannelConfig) (pin : Level) : ChannelRun :=
  match cfg.mode, cfg.edge with
  | .off, _ => .off
  | _, .both => .armed pin none
  | _, _ => .priming 0

/-- CHANNEL: field checks, then STATE unless the channel is OFF; then the whole configuration is
replaced, the counters are cleared and the channel enters its state (R81, R82). A sample that the
channel took ahead of the coming tick-clock period stands (notes/assumptions/13.md). -/
def execChannel (f : ChannelFields) (pin : Level) (s : State) (go : Extent := .toReply) :
    Host.Outcome State Fault Refusal :=
  interpret kindChannel (channelPayload f) (fun c s =>
    match readChannel f with
    | none => answer c .badField [] s
    | some (n, cfg) =>
        if s.channels[n].run ≠ .off then answer c .state [] s
        else
          let s := readInput n pin s
          let run := enteredRun cfg s.pins.inputs[n]
          answer c .ok [run.code]
            (setChannel n { s.channels[n] with
              config := cfg, run := run, edgeCount := 0, events := 0 } s)) go s

/-- A channel that enters OFF owes no sample (R68). -/
def Sampling.atOff : Sampling → Sampling
  | .inStep | .due => .inStep
  | .ahead => .ahead

/-- CHANNEL_OFF: OFF with the working state discarded, the configuration and the event counter kept
(R83). -/
def execChannelOff (channel : Byte) (s : State) (go : Extent := .toReply) : Host.Outcome State Fault Refusal :=
  interpret kindChannelOff [channel] (fun c s =>
    match readIndex 8 channel with
    | none => answer c .badField [] s
    | some n =>
        let ch := { s.channels[n] with
                      run := .off, edgeCount := 0, sampling := s.channels[n].sampling.atOff }
        answer c .ok (be 4 ch.events.toNat) (setChannel n ch s)) go s

/-- The contents of CHANNEL_STATUS's reply (R84, R196): the channel, and the pending-loss count as the
Stamp Queue holds it at the same moment, a DESIGN CHOICE (notes/assumptions/6.md). -/
def channelStatusFields (n : Fin 8) (s : State) : Payload :=
  let ch := s.channels[n]
  [ch.config.mode.code, ch.config.edge.code] ++ be 1 ch.config.divisor ++ be 1 ch.config.filter
    ++ [boolCode ch.config.queue, ch.run.code] ++ be 1 ch.edgeCount ++ be 4 ch.events.toNat
    ++ be 2 s.stamps.channelLoss[n].toNat

/-- CHANNEL_STATUS replies OK with the channel as it stands and changes nothing (R84). The Stamp
Queue's pending-loss count is read in the channel's own claim, so no sample and no stamp offer falls
between the two readings. R164 hands each other block a claim and R67 and R123 list none for this
reading: whether it is a claim of its own is left open, and one claim is a DESIGN CHOICE
(notes/assumptions/6.md). -/
def execChannelStatus (channel : Byte) (s : State) (go : Extent := .toReply) :
    Host.Outcome State Fault Refusal :=
  interpret kindChannelStatus [channel] (fun c s =>
    match readIndex 8 channel with
    | none => answer c .badField [] s
    | some n => answer c .ok (channelStatusFields n s) s) go s

/-- The filter at one sample (R69): the settled level and pending transition after it, and the
qualified transition, as its level and stamp, when one counts. -/
def filterSample (filter : Nat) (level : Level) (value : Time) (settled : Level)
    (pending : Option Pending) : Level × Option Pending × Option (Level × Time) :=
  match pending with
  | none =>
      if level = settled then (settled, none, none)
      else if filter = 0 then (level, none, some (level, value))
      else (settled, some ⟨level, value, 0⟩, none)
  | some p =>
      if level = p.level then
        if filter ≤ p.held + 1 then (p.level, none, some (p.level, p.stamp))
        else (settled, some { p with held := p.held + 1 }, none)
      else (settled, none, none)

/-- Counts an event and hands its offers over: to the Stamp Queue when the channel queues, and to the
Trigger Table always (R78 to R80). -/
def formEvent (n : Fin 8) (o : StampOffer) (sourceTime : Time) (s : State) : State :=
  let ch := s.channels[n]
  let s := setChannel n { ch with events := ch.events + 1 } s
  let s := if ch.config.queue then offerStamp o s else s
  offerEvent ⟨.channel n, sourceTime⟩ s

/-- A selected edge goes to the divisor: whether it is a divided edge, and the edge count after it
(R73). -/
def divide (divisor edgeCount : Nat) : Bool × Nat :=
  if divisor ≤ edgeCount + 1 then (true, 0) else (false, edgeCount + 1)

/-- A divided edge of an EDGE channel is an EDGE event (R74). -/
def edgeEvent (n : Fin 8) (d : Polarity) (t : Time) (s : State) : State :=
  formEvent n ⟨.edge n d, t⟩ t s

/-- A divided edge of a PERIOD channel: the first sets the reference; each later one is a PERIOD
event whose stamp is the new reference (R75). -/
def periodEdge (n : Fin 8) (t : Time) (s : State) : State :=
  let ch := s.channels[n]
  match ch.run with
  | .armed settled pending =>
      setChannel n { ch with run := .measuring settled pending t } s
  | .measuring settled pending r =>
      let m := measure t r
      let s := setChannel n { ch with run := .measuring settled pending t } s
      formEvent n ⟨.period n m.1 m.2, t⟩ t s
  | .off | .priming _ => s

/-- A qualified transition of a WIDTH channel: a leading edge in ARMED sets the reference, a trailing
edge in MEASURING is a WIDTH event (R76). -/
def widthEdge (n : Fin 8) (d : Polarity) (t : Time) (s : State) : State :=
  let ch := s.channels[n]
  match ch.run with
  | .armed settled pending =>
      if ch.config.edge.leads d then
        setChannel n { ch with run := .measuring settled pending t } s
      else s
  | .measuring settled pending r =>
      if ch.config.edge.leads d then s
      else
        let m := measure t r
        let s := setChannel n { ch with run := .armed settled pending } s
        formEvent n ⟨.width n m.1 m.2, r⟩ t s
  | .off | .priming _ => s

/-- What a qualified transition to a level, with its stamp, means by mode and edge selection (R70,
R73). -/
def takeTransition (n : Fin 8) (level : Level) (t : Time) (s : State) : State :=
  let ch := s.channels[n]
  let d := directionTo level
  match ch.config.mode with
  | .off => s
  | .width => widthEdge n d t s
  | .edge =>
      if ch.config.edge.selects d then
        let (divided, count) := divide ch.config.divisor ch.edgeCount
        let s := setChannel n { ch with edgeCount := count } s
        if divided then edgeEvent n d t s else s
      else s
  | .period =>
      if ch.config.edge.selects d then
        let (divided, count) := divide ch.config.divisor ch.edgeCount
        let s := setChannel n { ch with edgeCount := count } s
        if divided then periodEdge n t s else s
      else s

/-- A run state with the settled level and pending transition the filter leaves. -/
def ChannelRun.filtered (settled : Level) (pending : Option Pending) : ChannelRun → ChannelRun
  | .armed _ _ => .armed settled pending
  | .measuring _ _ r => .measuring settled pending r
  | .off => .off
  | .priming k => .priming k

/-- One sample of an ARMED or MEASURING channel (R69, R70). -/
def sampleRunning (n : Fin 8) (settled : Level) (pending : Option Pending) (s : State) : State :=
  let ch := s.channels[n]
  let (settled', pending', q) :=
    filterSample ch.config.filter s.pins.inputs[n] s.time.value settled pending
  let s := setChannel n { ch with run := ch.run.filtered settled' pending' } s
  match q with
  | none => s
  | some (level, stamp) => takeTransition n level stamp s

/-- One sample of a PRIMING channel (R71). -/
def samplePriming (n : Fin 8) (k : Nat) (s : State) : State :=
  let ch := s.channels[n]
  let run :=
    if s.pins.inputs[n] ≠ ch.config.edge.preceding then .priming 0
    else if ch.config.filter + 1 ≤ k + 1 then .armed ch.config.edge.preceding none
    else .priming (k + 1)
  setChannel n { ch with run := run } s

/-- A channel's sample, taken whole: nothing in OFF, priming, or the filter and what it lets through
(R67 to R71). -/
def takeSample (n : Fin 8) (s : State) : State :=
  match s.channels[n].run with
  | .off => s
  | .priming k => samplePriming n k s
  | .armed settled pending => sampleRunning n settled pending s
  | .measuring settled pending _ => sampleRunning n settled pending s

/-- The place of a channel's samples after the one it takes now, when it may take one: the sample due
of the last tick-clock period, or that of the period which the next source period completes, ahead
of the timebase's claim. Otherwise no sample is taken (R68). -/
def Sampling.afterSample (ends : Bool) : Sampling → Option Sampling
  | .due => some .inStep
  | .inStep => if ends then some .ahead else none
  | .ahead => none

/-- A channel samples its pin at a tick-clock period, once in each (R68, R69). A channel in OFF does not
sample, and one that has taken its sample of the period does not until the next: this step then does
not take place. -/
def execChannelSample (n : Fin 8) (pin : Level) (s : State) : Host.Outcome State Fault Refusal :=
  whileUp s fun s =>
    if s.channels[n].run = .off then noStep s
    else
      match s.channels[n].sampling.afterSample (periodEnds s) with
      | none => noStep s
      | some place =>
          finish (takeSample n
            (setChannel n { s.channels[n] with sampling := place } (readInput n pin s)))

end Sys2Proof.Machine
end

