-- ==== Sys2Proof/Machine/Lines.lean ====
section
/-! DEFINITION. The output lines' commands: LINE, DRIVE and LINE_STATUS (03_output_lines). -/

namespace Sys2Proof.Machine

/-- A line after a LINE that passes its checks: the idle level is set, and a change to DIRECT
abandons the running pulse with the level kept (R57, R58). -/
def OutputLine.configure (mode : LineMode) (idle : Level) (l : OutputLine) : OutputLine :=
  { l with mode := mode, idle := idle, pulse := if mode = .direct then none else l.pulse }

/-- LINE line, mode, idle level: field checks, then STATE for a change of idle level while a pulse
runs (R57, R58). -/
def execLine (line mode idle : Byte) (s : State) (go : Extent := .toReply) : Host.Outcome State Fault Refusal :=
  interpret kindLine [line, mode, idle] (fun c s =>
    match readIndex 8 line, readLineMode mode, readLevel idle with
    | some n, some m, some i =>
        if s.lines[n].pulse.isSome ∧ i ≠ s.lines[n].idle then answer c .state [] s
        else
          let l := s.lines[n].configure m i
          answer c .ok [l.mode.code, levelCode l.idle, levelCode l.level] (setLine n l s)
    | _, _, _ => answer c .badField [] s) go s

/-- DRIVE line, level: field checks, then STATE for a SCHEDULED line; otherwise the current level is
set (R59). -/
def execDrive (line level : Byte) (s : State) (go : Extent := .toReply) : Host.Outcome State Fault Refusal :=
  interpret kindDrive [line, level] (fun c s =>
    match readIndex 8 line, readLevel level with
    | some n, some v =>
        if s.lines[n].mode = .scheduled then answer c .state [] s
        else answer c .ok [] (setLine n { s.lines[n] with level := v } s)
    | _, _ => answer c .badField [] s) go s

/-- The contents of LINE_STATUS's reply: the timebase value and the eight lines, OUT0 first (R60). -/
def lineStatusFields (s : State) : Payload :=
  be 6 s.time.value ++ s.lines.toList.flatMap lineStateBytes

/-- LINE_STATUS replies OK with the lines' state and changes nothing (R60). -/
def execLineStatus (s : State) (go : Extent := .toReply) : Host.Outcome State Fault Refusal :=
  interpret kindLineStatus [] (fun c s => answer c .ok (lineStatusFields s) s) go s

/-- The level pin OUTn drives (R47). -/
def outPin (n : Fin 8) (s : State) : Level := s.lines[n].level

end Sys2Proof.Machine
end

