-- ==== Sys2Proof/Machine/Link.lean ====
section
/-! DEFINITION. The serial link: characters taken, a frame's end, link errors, the end of a
transmission and of the idle time after a device reset (10_the_serial_link). -/

namespace Sys2Proof.Machine

/-- A character on RXD is taken by the receive machine according to its state (R180, R182). -/
def execByteTaken (c : RxChar) (s : State) : Host.Outcome State Fault Refusal :=
  whileUp s fun s => finish (takeChar c s)

/-- The character that is the CRC_LO byte ends the frame: good and handed to acceptance, or a CHECK
error (R186, R187). In any other state of the receive machine, and for a character that gives no
byte (R180), this step does not take place. -/
def execFrameReceived (c : RxChar) (s : State) : Host.Outcome State Fault Refusal :=
  whileUp s fun s =>
    if s.rx.state = .crcLo ∧ s.rx.hears c then finish (takeChar c s) else noStep s

/-- The character that is a LEN byte above 120 is a LENGTH error (R183, R187). With any other byte or
in any other state of the receive machine, and for a character that gives no byte (R180), this step
does not take place. -/
def execLengthError (c : RxChar) (s : State) : Host.Outcome State Fault Refusal :=
  whileUp s fun s =>
    if s.rx.state = .len ∧ s.rx.hears c ∧ Config.maxPayload < c.data.toNat then
      finish (takeChar c s)
    else noStep s

/-- The gap runs out in LEN to CRC_LO: a GAP error (R184, R187). In HUNT there is no gap expiry. -/
def execGapExpiry (s : State) : Host.Outcome State Fault Refusal :=
  whileUp s fun s =>
    match s.rx.gapExpiry with
    | none => noStep s
    | some m => if s.rx.state = .hunt then noStep s else finish (linkError .gap (reach m s))

/-- The retransmit timer after a STAMPS frame's transmission ends (R135). -/
def timerAfterSending (resend : Bool) (s : State) : Option Moment :=
  if s.stream.window.isEmpty ∨ s.stream.window.any (fun r => r.marked) then s.stream.timer
  else if resend ∨ s.stream.timer.isNone then some (inMillis s.stream.interval s)
  else s.stream.timer

/-- A source is told that its frame has been sent (R159, R135, R190). -/
def tellSent (src : FrameSource) (s : State) : State :=
  match src with
  | .reply i => s.withCmd { s.cmd with slots := s.cmd.slots.set i .free }
  | .notice => s
  | .firstSending _ => s.withStream { s.stream with timer := timerAfterSending false s }
  | .resend _ => s.withStream { s.stream with timer := timerAfterSending true s }

/-- The transmitter takes the boundary that follows a frame or the idle time after a reset (R189). -/
def takeBoundary (s : State) : State := boundary (s.withTx { s.tx with told := false })

/-- The transmission of a frame ends: its source is told, and the transmitter takes the boundary that
follows (R190, R189). -/
def execEndOfTransmission (s : State) : Host.Outcome State Fault Refusal :=
  whileUp s fun s =>
    match s.tx.state with
    | .sending src _ => finish (takeBoundary (tellSent src (idleTx s)))
    | .idle | .postReset => noStep s

/-- One character time of idle TXD after a device reset has passed: the transmitter takes a boundary,
told or not (R193). -/
def execPostResetIdleEnd (s : State) : Host.Outcome State Fault Refusal :=
  whileUp s fun s =>
    match s.tx.state with
    | .postReset => finish (takeBoundary (idleTx s))
    | .idle | .sending _ _ => noStep s

/-- The levels TXD drives: HIGH while no frame is sent, and otherwise the frame's bit times (R179,
R188, R193). -/
def txdLevels (s : State) : List Level :=
  match s.tx.state with
  | .idle | .postReset => [.high]
  | .sending _ f => frameLevels f

end Sys2Proof.Machine
end

