-- ==== Sys2Proof/Machine/Sampling.lean ====
section
/-! DEFINITION. The sampler: SAMPLER, WINDOW, and the ends of acquisition, conversion and recovery
(05_the_sampler). -/

namespace Sys2Proof.Machine

/-- Whether the converter is ACQUIRING, CONVERTING or RECOVERING (R95 check 3). -/
def Converter.takenUp : Converter → Bool
  | .off | .idle => false
  | .acquiring _ _ | .converting _ _ _ | .recovering => true

/-- Whether a conversion is in progress (R87). -/
def Converter.inProgress : Converter → Bool
  | .acquiring _ _ | .converting _ _ _ => true
  | .off | .idle | .recovering => false

/-- The recovery end after what aborts a conversion in progress: 3 µs from now, or as it stood (R96,
R100). -/
def abortedRecovery (s : State) : Option Moment :=
  if s.sampler.conv.inProgress then some (s.now + Config.recoveryMicros) else s.sampler.recoveryEnd

/-- SAMPLER OFF takes the converter to OFF, aborting a conversion in progress (R96). -/
def samplerOff (s : State) : State :=
  s.withSampler { s.sampler with conv := .off, recoveryEnd := abortedRecovery s }

/-- The state an OFF converter enters when switched on: RECOVERING while the recovery end is in the
future, IDLE otherwise (R97). -/
def startedConverter (s : State) : Converter :=
  match s.sampler.recoveryEnd with
  | some m => if s.now < m then .recovering else .idle
  | none => .idle

/-- SAMPLER ON switches the converter on when it is OFF (R97). -/
def samplerOn (s : State) : State :=
  match s.sampler.conv with
  | .off => s.withSampler { s.sampler with conv := startedConverter s }
  | .idle | .acquiring _ _ | .converting _ _ _ | .recovering => s

/-- The contents of SAMPLER's reply (R95, R196). -/
def samplerFields (s : State) : Payload :=
  [s.sampler.conv.code] ++ be 1 s.sampler.acquisition
    ++ s.sampler.inputs.toList.flatMap (fun x => be 2 x.busyMiss.toNat)

/-- SAMPLER enable, acquisition time: field checks, then STATE for a new acquisition time while the
converter is taken up; then the time is set and the enable taken (R95 to R97). -/
def execSampler (enable acquisition : Byte) (s : State) (go : Extent := .toReply) :
    Host.Outcome State Fault Refusal :=
  interpret kindSampler [enable, acquisition] (fun c s =>
    match readYesNo enable, readRange 2 255 acquisition.toNat with
    | some on, some t =>
        if t ≠ s.sampler.acquisition ∧ s.sampler.conv.takenUp then answer c .state [] s
        else
          let s := s.withSampler { s.sampler with acquisition := t }
          let s := if on then samplerOn s else samplerOff s
          answer c .ok (samplerFields s) s
    | _, _ => answer c .badField [] s) go s

/-- The contents of WINDOW's reply (R98, R196). -/
def windowFields (x : AnalogInput) : Payload :=
  be 2 x.low ++ be 2 x.high ++ [boolCode x.queue, zoneCode x.zone] ++ be 2 x.busyMiss.toNat

/-- The input, window and queue enable of a WINDOW (R98 checks 1 to 4). -/
def readWindow (input : Byte) (low high : BitVec 16) (queue : Byte) :
    Option (Fin 4 × Nat × Nat × Bool) :=
  match readIndex 4 input, readRange 0 4095 low.toNat, readRange low.toNat 4095 high.toNat,
      readYesNo queue with
  | some i, some lo, some hi, some q => some (i, lo, hi, q)
  | _, _, _, _ => none

/-- WINDOW input, low, high, queue enable: the window and queue enable are set and the zone becomes
UNKNOWN (R98). -/
def execWindow (input : Byte) (low high : BitVec 16) (queue : Byte) (s : State) (go : Extent := .toReply) :
    Host.Outcome State Fault Refusal :=
  interpret kindWindow (windowPayload input low high queue) (fun c s =>
    match readWindow input low high queue with
    | none => answer c .badField [] s
    | some (i, lo, hi, q) =>
        let x := { s.sampler.inputs[i] with low := lo, high := hi, queue := q, zone := none }
        answer c .ok (windowFields x) (setInput i x s)) go s

/-- Records the level a step finds an analog input at. -/
def readAnalog (i : Fin 4) (level : BitVec 12) (s : State) : State :=
  s.withPins { s.pins with analog := s.pins.analog.set i level }

/-- The end of acquisition: the input's level is held and the converter enters CONVERTING for 10 µs
(R92). The level is given as the 12-bit result it converts to (notes/assumptions/9.md). -/
def execEndOfAcquisition (level : BitVec 12) (s : State) : Host.Outcome State Fault Refusal :=
  whileUp s fun s =>
    match s.sampler.conv with
    | .acquiring ctx endAt =>
        let s := readAnalog ctx.input level (reach endAt s)
        finish (s.withSampler { s.sampler with
          conv := .converting ctx s.pins.analog[ctx.input] (s.now + Config.conversionMicros) })
    | .off | .idle | .converting _ _ _ | .recovering => noStep s

/-- Whether a class is a zone entry: the zone before is known and differs (R93). -/
def zoneEntry (zone : Option ZoneClass) (cls : ZoneClass) : Bool :=
  match zone with
  | none => false
  | some z => z ≠ cls

/-- A result is classed, offered to the Stamp Queue when the input queues, made the input's zone, and
offered to the Trigger Table when it is a zone entry, in that order (R93, R94). -/
def takeResult (ctx : ConvContext) (result : BitVec 12) (s : State) : State :=
  let x := s.sampler.inputs[ctx.input]
  let cls := classify x.low x.high result
  let s := if x.queue then
      offerStamp ⟨.sample ctx.input result cls ctx.late ctx.label, ctx.fireTick⟩ s else s
  let s := setInput ctx.input { x with zone := some cls } s
  if zoneEntry x.zone cls then offerEvent ⟨.zone ctx.input cls, ctx.fireTick⟩ s else s

/-- The end of conversion: the converter enters IDLE and the result is taken on, in one claim (R92 to
R94). -/
def execEndOfConversion (s : State) : Host.Outcome State Fault Refusal :=
  whileUp s fun s =>
    match s.sampler.conv with
    | .converting ctx held endAt =>
        let s := reach endAt s
        finish (takeResult ctx held (s.withSampler { s.sampler with conv := .idle }))
    | .off | .idle | .acquiring _ _ | .recovering => noStep s

/-- The recovery end is reached: RECOVERING becomes IDLE, any other state is unchanged (R97). -/
def execRecoveryEnd (s : State) : Host.Outcome State Fault Refusal :=
  whileUp s fun s =>
    match s.sampler.recoveryEnd with
    | none => noStep s
    | some m =>
        let s := reach m s
        match s.sampler.conv with
        | .recovering => finish (s.withSampler { s.sampler with conv := .idle })
        | .off | .idle | .acquiring _ _ | .converting _ _ _ => finish s

end Sys2Proof.Machine
end

