-- ==== Sys2Proof/Machine/Resets.lean ====
section
/-! DEFINITION. The resets: a pending soft reset applying, power-on, and the RESET pin (R16, R44, R63,
R64, R86, R100, R119, R144, R145, R156, R157, R175, R176, R178, R193, R194). -/

namespace Sys2Proof.Machine

/-- The sampler after a reset: R100's values, a conversion in progress aborted with the recovery end
3 µs on, and otherwise the recovery end as it stood. -/
def resetSampler (s : State) : Sampler := { Sampler.reset with recoveryEnd := abortedRecovery s }

/-- A line after a soft reset with HOLD_LINES: DIRECT at its present level, its idle level kept, a
running pulse abandoned (R64). -/
def OutputLine.hold (l : OutputLine) : OutputLine := { l with mode := .direct, pulse := none }

/-- The lines after a soft reset (R64). -/
def resetLines (option : ResetOption) (s : State) : Vector OutputLine 8 :=
  match option with
  | .plain => Vector.replicate 8 OutputLine.reset
  | .holdLines => mapAll OutputLine.hold s.lines

/-- A soft reset applied to every block at one moment (R175). The receive machine keeps its framing and
the receiver its wait for RXD (R194), the rate, the pins and the time reference are not reset, and a
hand-over or an offer that no block has taken yet stands (R119, R144, R155; notes/assumptions/8.md). -/
def softReset (option : ResetOption) (s : State) : State :=
  { State.reset with
    lines := resetLines option s
    sampler := resetSampler s
    notices := NoticeQueue.resetFor .command
    rx := { s.rx with lengthErrors := 0, gapErrors := 0, checkErrors := 0 }
    tx := { s.tx with told := true }
    rate := s.rate
    pins := s.pins
    now := s.now
    handed := s.handed
    offered := s.offered
    endings := s.endings
    pending := s.pending }

/-- The drain is over: no reply is FILLED, none is SENDING, and the transmitter is between frames
(R175, R191). -/
def drained (s : State) : Bool :=
  s.cmd.replyQueue.isEmpty && s.cmd.slots.toList.all (fun x => x = .free)
    && decide (s.tx.state = .idle)

/-- The pending soft reset applies once the drain is over (R175); READY tells the transmitter, whose
first boundary sends it, at the end of this step or, where its ending leaves the boundary out, of a
later one, so that a reply filled by a frame completing at the same moment goes first (R194). Before
the drain is over this step does not take place. -/
def execResetApplies (s : State) : Host.Outcome State Fault Refusal :=
  whileUp s fun s =>
    match s.cmd.resetPending with
    | none => noStep s
    | some option => if drained s then finish (softReset option s) else noStep s

/-- Power-on completes a device reset: every block at its reset values, the straps read, READY with
cause POWER admitted, TXD held HIGH (R16, R44, R63, R86, R100, R119, R144, R156, R176, R178, R179,
R193). The RESET pin is taken as not active when power-on completes, whether or not it was held
before: READY is admitted at once, and characters and boundaries are taken from then on, a DESIGN
CHOICE (notes/assumptions/15.md). A hand-over or an offer that no block has taken yet stands, and is
taken after the reset: a notice is then admitted behind READY (R119, R144, R155;
notes/assumptions/8.md). -/
def execPowerOn (rate1 rate0 : Level) (s : State) : Host.Outcome State Fault Refusal :=
  .next { State.reset with
    rate := rateCode rate1 rate0
    pins := { s.pins with rate1 := rate1, rate0 := rate0, resetActive := false }
    handed := s.handed
    offered := s.offered
    endings := s.endings
    pending := s.pending }

/-- The RESET pin becomes active: every block takes its reset values, a frame under way is cut off,
and the part is held at reset; READY waits for the release (R150, R176, R193). A hand-over or an
offer that no block has taken yet stands, and is taken once the pin is released: a notice is then
admitted behind READY (R119, R144, R155; notes/assumptions/8.md). -/
def execResetPin (s : State) : Host.Outcome State Fault Refusal :=
  .next { State.reset with
    sampler := resetSampler s
    notices := { queue := [], lost := 0, dropped := 0 }
    rate := s.rate
    pins := { s.pins with resetActive := true }
    now := s.now
    handed := s.handed
    offered := s.offered
    endings := s.endings
    pending := s.pending }

/-- The RESET pin is released: the straps are read and READY with cause PIN is admitted; the
transmitter goes on holding TXD HIGH for one character time (R150, R179, R193). Without the pin
active this step does not take place. -/
def execResetPinRelease (rate1 rate0 : Level) (s : State) : Host.Outcome State Fault Refusal :=
  if s.pins.resetActive then
    .next { s with
      notices := NoticeQueue.resetFor .pin
      rate := rateCode rate1 rate0
      pins := { s.pins with rate1 := rate1, rate0 := rate0, resetActive := false } }
  else noStep s

end Sys2Proof.Machine
end

