-- ==== Sys2Proof/Machine/Stream.lean ====
section
/-! DEFINITION. The Stamp Queue and the report stream: STREAM, READ, RELEASE, ACK, an offer, the hold
time reached and the retransmit timer's expiry (07_the_stamp_queue_and_the_report_stream). -/

namespace Sys2Proof.Machine

/-- The contents of STREAM's reply (R127, R196). -/
def streamFields (s : State) : Payload :=
  [s.stream.state.code] ++ be 1 s.stream.batch ++ be 1 s.stream.hold ++ be 2 s.stream.interval
    ++ be 1 s.stream.retryLimit ++ be 1 s.stamps.entries.length

/-- The configuration fields in range (R127 check 2). -/
def streamInRange (f : StreamFields) : Bool :=
  decide (1 ≤ f.batch.toNat ∧ f.batch.toNat ≤ 8) && decide (f.hold.toNat ≤ 250)
    && decide (10 ≤ f.interval.toNat ∧ f.interval.toNat ≤ 1000)
    && decide (1 ≤ f.retryLimit.toNat ∧ f.retryLimit.toNat ≤ 15)

/-- Whether the fields are the configuration in force (R127 check 3). -/
def sameConfig (f : StreamFields) (st : ReportStream) : Bool :=
  decide (f.batch.toNat = st.batch) && decide (f.hold.toNat = st.hold)
    && decide (f.interval.toNat = st.interval) && decide (f.retryLimit.toNat = st.retryLimit)

/-- The stream with the configuration of the fields. -/
def ReportStream.configured (f : StreamFields) (st : ReportStream) : ReportStream :=
  { st with batch := f.batch.toNat, hold := f.hold.toNat, interval := f.interval.toNat
            retryLimit := f.retryLimit.toNat }

/-- The stream takes its enable (R127 to R129). A stream that enters ON may have a report eligible at
once (R129, R132). -/
def enableStream (on : Bool) (s : State) : State :=
  match s.stream.state, on with
  | .off, true => tellIfEligible
      (s.withStream { s.stream with state := .on, window := [], retryCount := 0, timer := none })
  | .off, false => s
  | .on, true => s
  | .on, false => revertStream .off s
  | .stalled, true => tellIfEligible (s.withStream { s.stream with state := .on, retryCount := 0 })
  | .stalled, false => s.withStream { s.stream with state := .off }

/-- STREAM: field checks, then STATE for a new configuration while ON or STALLED; then the
configuration is set and the enable taken (R127). -/
def execStream (f : StreamFields) (s : State) (go : Extent := .toReply) : Host.Outcome State Fault Refusal :=
  interpret kindStream (streamPayload f) (fun c s =>
    match readYesNo f.enable with
    | none => answer c .badField [] s
    | some on =>
        if !streamInRange f then answer c .badField [] s
        else if s.stream.state ≠ .off ∧ !sameConfig f s.stream then answer c .state [] s
        else
          let s := enableStream on (s.withStream (s.stream.configured f))
          answer c .ok (streamFields s) s) go s

/-- The contents of READ's reply: queue count, entries copied, and the oldest entries (R130, R196). -/
def readFields (n : Nat) (s : State) : Payload :=
  let copied := s.stamps.entries.take n
  be 1 s.stamps.entries.length ++ be 1 copied.length
    ++ copied.flatMap (fun e => stampBytes e.content)

/-- READ n: BAD_FIELD outside 1..8, then STATE unless the stream is OFF; otherwise the n oldest
entries are copied and nothing changes (R130). -/
def execRead (n : Byte) (s : State) (go : Extent := .toReply) : Host.Outcome State Fault Refusal :=
  interpret kindRead [n] (fun c s =>
    match readRange 1 8 n.toNat with
    | none => answer c .badField [] s
    | some k =>
        if s.stream.state ≠ .off then answer c .state [] s
        else answer c .ok (readFields k s) s) go s

/-- RELEASE n: STATE unless the stream is OFF, then BAD_FIELD for more entries than stand; otherwise
the n oldest leave the queue (R131). -/
def execRelease (n : Byte) (s : State) (go : Extent := .toReply) : Host.Outcome State Fault Refusal :=
  interpret kindRelease [n] (fun c s =>
    if s.stream.state ≠ .off then answer c .state [] s
    else if s.stamps.entries.length < n.toNat then answer c .badField [] s
    else
      let s := s.withStamps { s.stamps with entries := s.stamps.entries.drop n.toNat }
      answer c .ok (be 1 s.stamps.entries.length) s) go s

/-- The report stream takes the oldest ACK handed to it, when it is the one with this number; an ACK
whose payload is not one byte has no number and is stale (R140, R141, R160). -/
def execAck (sequence : Byte) (s : State) : Host.Outcome State Fault Refusal :=
  whileUp s fun s =>
    match s.handed.acks with
    | [] => noStep s
    | p :: rest =>
        if p.length ≠ 1 then finish (staleAck (s.withHanded { s.handed with acks := rest }))
        else if p ≠ [sequence] then noStep s
        else finish (takeAck sequence (s.withHanded { s.handed with acks := rest }))

/-- The block that makes a measurement's offer (R123). -/
def Measurement.block : Measurement → StampBlock
  | .edge n _ | .width n _ _ | .period n _ _ => .channel n
  | .sample _ _ _ _ _ => .sampler

/-- The first offer of a block among those handed over. -/
def oldestOffer (b : StampBlock) (offers : List StampOffer) : Option StampOffer :=
  offers.find? (fun o => o.what.block = b)

/-- The Stamp Queue takes the oldest offer of a block (R122 to R125); once it is admitted a report may
be eligible (R132). -/
def execStampOffer (block : StampBlock) (s : State) : Host.Outcome State Fault Refusal :=
  whileUp s fun s =>
    match oldestOffer block s.handed.offers with
    | none => noStep s
    | some o =>
        let s := s.withHanded { s.handed with offers := s.handed.offers.erase o }
        let u := s.withStamps (takeOffer o s.now s.stamps)
        finish (if s.stamps.entries.length < Config.stampCapacity then tellIfEligible u else u)

/-- The oldest WAITING entry's age reaches the hold while the stream is ON and the window has room:
the reference reaches that moment and the report is eligible (R132). -/
def execHoldTimeReached (s : State) : Host.Outcome State Fault Refusal :=
  whileUp s fun s =>
    match waitingEntries s with
    | [] => noStep s
    | e :: _ =>
        if s.stream.state = .on ∧ s.stream.window.length < Config.windowCapacity then
          finish (tellIfEligible (reach (e.since + s.stream.hold * Config.microsPerMilli) s))
        else noStep s

/-- A report marked for resend. -/
def Report.mark (r : Report) : Report := { r with marked := true }

/-- An expiry below the retry limit: the timer stops, every report is marked, the retry count goes up
(R137). A marked report tells the transmitter (R189). -/
def markWindow (s : State) : State :=
  (s.withStream { s.stream with timer := none, window := s.stream.window.map Report.mark
                                retryCount := s.stream.retryCount + 1 }).withTx
    { s.tx with told := s.tx.told || !s.stream.window.isEmpty }

/-- The retransmit timer expires: below the limit every report is marked (R137); at the limit the
stream stalls (R139). -/
def execRetransmitExpiry (s : State) : Host.Outcome State Fault Refusal :=
  whileUp s fun s =>
    match s.stream.timer with
    | none => noStep s
    | some m =>
        let s := reach m s
        if s.stream.retryCount < s.stream.retryLimit then finish (markWindow s)
        else finish (offerNotice .streamStalled s.time.value none (revertStream .stalled s))

end Sys2Proof.Machine
end

