-- ==== Sys2Proof/Machine/System.lean ====
section
/-! DEFINITION. The command block's own commands and event: HELLO, STATUS, RESET, AWAIT and the expiry
of an await's timeout (09_commands_replies_and_waiting). -/

namespace Sys2Proof.Machine

/-- The contents of HELLO's reply (R170, R196): part code, revision, capacities and rate code. -/
def helloFields (s : State) : Payload :=
  be 2 Config.partCode
    ++ [BitVec.ofNat 8 Config.revision, 64, 8, 8, 4, 16, 128, 32, 4, 8, 16,
        BitVec.ofNat 8 Config.maxPayload, BitVec.ofNat 8 s.rate.toNat]

/-- HELLO replies OK with the part's identity and capacities and changes nothing (R170). -/
def execHello (s : State) (go : Extent := .toReply) : Host.Outcome State Fault Refusal :=
  interpret kindHello [] (fun c s => answer c .ok (helloFields s) s) go s

/-- The readings of STATUS, each a claim on the block that owns what it reads, as the blocks stand, in
R171's order and R196's widths: the Timebase, the Action Table, the eight channels one by one, the
Stamp Queue, the report stream, the Notice Queue, the link and the command block (R123, R146,
R187). -/
def statusReadings (s : State) : List Payload :=
  [[s.time.run.code] ++ be 6 s.time.value, be 1 s.table.records.length]
    ++ s.channels.toList.map (fun c => be 4 c.events.toNat)
    ++ [be 1 s.stamps.entries.length
          ++ s.stamps.channelLoss.toList.flatMap (fun x => be 2 x.toNat)
          ++ s.stamps.inputLoss.toList.flatMap (fun x => be 2 x.toNat)
          ++ be 4 s.stamps.dropped.toNat,
        [s.stream.state.code] ++ be 2 s.stream.stale.toNat,
        be 2 s.notices.lost.toNat ++ be 4 s.notices.dropped.toNat,
        be 2 s.rx.lengthErrors.toNat ++ be 2 s.rx.gapErrors.toNat ++ be 2 s.rx.checkErrors.toNat,
        be 4 s.cmd.accepted.toNat ++ be 2 s.cmd.refused.toNat ++ be 2 s.cmd.refusalsLost.toNat
          ++ be 2 s.cmd.tagZero.toNat ++ be 1 s.cmd.queue.length ++ be 1 s.cmd.awaits.length]

/-- The number of STATUS's readings (R171). -/
def statusReadingCount : Nat := 15

/-- The readings that a STATUS under execution has made. -/
def readingsMade (s : State) : List Payload :=
  match s.cmd.progress with
  | .reading made => made
  | .notStarted | .replying _ => []

/-- The readings that a STATUS with k of them behind it makes in one step: the next one, a claim on the
block that owns it, or every one that is left (R171). -/
def nextReadings (go : Extent) (k : Nat) (s : State) : List Payload :=
  match go with
  | .oneClaim => ((statusReadings s).drop k).take 1
  | .toReply => (statusReadings s).drop k

/-- STATUS reads on; with its last reading the reply is made (R171). -/
def readOn (go : Extent) (c : QueuedCommand) (s : State) : State :=
  let made := readingsMade s ++ nextReadings go (readingsMade s).length s
  if made.length < statusReadingCount then setProgress (.reading made) s
  else answer c .ok made.flatten s

/-- STATUS replies OK with the summary of counts and states, each block's read in a claim on that block,
and changes nothing (R171). -/
def execStatus (s : State) (go : Extent := .toReply) : Host.Outcome State Fault Refusal :=
  interpret kindStatus [] (readOn go) go s

/-- RESET's option: 0 NONE, 1 HOLD_LINES (R172, R197). -/
def readResetOption (b : Byte) : Option ResetOption :=
  match b.toNat with
  | 0 => some .plain
  | 1 => some .holdLines
  | _ => none

/-- Answers commands ABORTED one after the other (R173 step 1). -/
def abortCommands : List QueuedCommand → State → State
  | [], s => s
  | c :: rest, s => abortCommands rest (fillSlot c.slot (replyTo c .aborted []) s)

/-- The claim of a RESET that passes its checks (R173): the commands behind it and the await entries
are answered ABORTED, RESET's own OK is filled, and reset pending is set, all in one claim. -/
def beginReset (c : QueuedCommand) (option : ResetOption) (s : State) : State :=
  let s := abortCommands s.cmd.queue.tail s
  let s := answerEntries .aborted [] s.cmd.awaits s
  let s := fillSlot c.slot (replyTo c .ok []) s
  s.withCmd { s.cmd with queue := [], awaits := [], resetPending := some option }

/-- RESET option (R172, R173). -/
def execReset (option : Byte) (s : State) (go : Extent := .toReply) : Host.Outcome State Fault Refusal :=
  interpret kindReset [option] (fun c s =>
    match readResetOption option with
    | none => answer c .badField [] s
    | some o => beginReset c o s) go s

/-- Moves an AWAIT from the command queue to the end of the await list, with its tag and slot
(R166). -/
def placeAwait (c : QueuedCommand) (h : Handle) (timeout : BitVec 16) (s : State) : State :=
  let expiry := if timeout = 0 then none else some (inMillis timeout.toNat s)
  s.withCmd { s.cmd with queue := s.cmd.queue.tail
                         awaits := s.cmd.awaits ++ [⟨c.tag, h, expiry, c.slot⟩] }

/-- AWAIT handle, timeout: the field check, then the placement claim (R166). -/
def execAwait (gen slot : Byte) (timeout : BitVec 16) (s : State) (go : Extent := .toReply) :
    Host.Outcome State Fault Refusal :=
  interpret kindAwait ([gen, slot] ++ be 2 timeout.toNat) (fun c s =>
    match readHandle gen slot with
    | none => answer c .badField [] s
    | some h =>
        if (findRecord h s).isNone then answer c .noSuch [] s
        else if Config.awaitCapacity ≤ s.cmd.awaits.length then answer c .awaitFull [] s
        else placeAwait c h timeout s) go s

/-- The await entry of a tag that has a timeout. -/
def timedAwait (tag : Byte) (s : State) : Option AwaitEntry :=
  s.cmd.awaits.find? (fun a => a.tag = tag && a.expiry.isSome)

/-- An await entry's timeout expires: it is answered TIMEOUT and leaves the list; with no such entry
nothing changes (R169). -/
def execAwaitTimeout (tag : Byte) (s : State) : Host.Outcome State Fault Refusal :=
  whileUp s fun s =>
    match timedAwait tag s with
    | none => noStep s
    | some a =>
        let s := reach (a.expiry.getD 0) s
        let s := fillSlot a.slot (awaitReply a .timeout []) s
        finish (s.withCmd { s.cmd with awaits := s.cmd.awaits.erase a })

end Sys2Proof.Machine
end

