-- ==== Sys2Proof/Machine/Triggers.lean ====
section
/-! DEFINITION. The Trigger Table: TRIGGER, TRIGGER_ARM, TRIGGER_CLEAR, TRIGGER_STATUS, a source event,
and the requests it makes of the Action Table (06_triggers). -/

namespace Sys2Proof.Machine

/-- A command of the Trigger Table: the claim it hands over waits while the Trigger Table has a claim in
progress (R103). Its payload's length is looked at before that (R164 step 1). -/
def interpretTrigger (kind : Byte) (payload : Payload) (rule : QueuedCommand → State → State)
    (go : Extent) (s : State) : Host.Outcome State Fault Refusal :=
  interpretWhen (fun s => s.triggers.claim.isNone) kind payload rule go s

/-- The state and shots left of a slot, as TRIGGER, TRIGGER_ARM and TRIGGER_STATUS reply them. -/
def SlotUse.shots : SlotUse → Nat
  | .empty => 0
  | .defined _ _ n _ => n

/-- The live-instance list of a slot (R102). -/
def SlotUse.list : SlotUse → List Handle
  | .empty => []
  | .defined _ _ _ l => l

/-- The contents of TRIGGER's and TRIGGER_ARM's replies (R114, R115, R196). -/
def armFields (u : SlotUse) : Payload := [u.code] ++ be 1 u.shots

/-- TRIGGER slot, definition: field checks, then STATE unless the slot is EMPTY; then the definition
is stored whole and the slot enters ARMED (R114). -/
def execTrigger (f : TriggerFields) (s : State) (go : Extent := .toReply) : Host.Outcome State Fault Refusal :=
  interpretTrigger kindTrigger (triggerPayload f) (fun c s =>
    match readTriggerDef f with
    | none => answer c .badField [] s
    | some (k, d) =>
        if s.triggers.slots[k].use ≠ .empty then answer c .state [] s
        else
          let u := SlotUse.defined d .armed d.shots []
          answer c .ok (armFields u) (setTriggerSlot k ⟨u, 0⟩ s)) go s

/-- TRIGGER_ARM's target state: 1 ARMED, 2 PAUSED (R115, R197). -/
def readTarget (b : Byte) : Option ArmState :=
  match b.toNat with
  | 1 => some .armed
  | 2 => some .paused
  | _ => none

/-- A defined slot after TRIGGER_ARM; a SPENT slot's shots are reloaded (R115). -/
def rearm (target : ArmState) (d : TriggerDef) (st : ArmState) (left : Nat) (l : List Handle) :
    SlotUse :=
  match st with
  | .armed | .paused => .defined d target left l
  | .spent => .defined d target d.shots l

/-- TRIGGER_ARM slot, target state (R115). -/
def execTriggerArm (slot target : Byte) (s : State) (go : Extent := .toReply) :
    Host.Outcome State Fault Refusal :=
  interpretTrigger kindTriggerArm [slot, target] (fun c s =>
    match readIndex 16 slot, readTarget target with
    | some k, some tgt =>
        match s.triggers.slots[k].use with
        | .empty => answer c .noSuch [] s
        | .defined d st left l =>
            let u := rearm tgt d st left l
            answer c .ok (armFields u) (setTriggerSlot k { s.triggers.slots[k] with use := u } s)
    | _, _ => answer c .badField [] s) go s

/-- TRIGGER_CLEAR slot, KEEP or CANCEL: the slot enters EMPTY. With KEEP, or with no instance, the
reply follows at once; with CANCEL the handles wait for their cancel requests and the reply for
the last of them (R116). -/
def execTriggerClear (slot disposal : Byte) (s : State) (go : Extent := .toReply) :
    Host.Outcome State Fault Refusal :=
  interpretTrigger kindTriggerClear [slot, disposal] (fun c s =>
    match readIndex 16 slot, readYesNo disposal with
    | some k, some cancel =>
        match s.triggers.slots[k].use with
        | .empty => answer c .noSuch [] s
        | .defined _ _ _ l =>
            let s := setTriggerSlot k { s.triggers.slots[k] with use := .empty } s
            if cancel ∧ l ≠ [] then setClaim (some (.clearing l l.length)) s
            else answer c .ok (be 1 l.length) s
    | _, _ => answer c .badField [] s) go s

/-- The contents of TRIGGER_STATUS's reply (R117, R196). -/
def triggerStatusFields (x : TriggerSlot) : Payload :=
  [x.use.code] ++ be 1 x.use.shots ++ be 1 x.use.list.length ++ be 2 x.misses.toNat

/-- TRIGGER_STATUS slot replies OK with the slot as it stands and changes nothing (R117). -/
def execTriggerStatus (slot : Byte) (s : State) (go : Extent := .toReply) : Host.Outcome State Fault Refusal :=
  interpretTrigger kindTriggerStatus [slot] (fun c s =>
    match readIndex 16 slot with
    | none => answer c .badField [] s
    | some k => answer c .ok (triggerStatusFields s.triggers.slots[k]) s) go s

/-! ## Source events (R104) -/

/-- The Trigger Table takes the oldest source event of a block (R104). With a claim of the Trigger Table
in progress (R103), or with no event of that block waiting, this step does not take place. An event
that a tick hands over can be taken within the tick too (`fireRecord`). -/
def execTriggerSourceEvent (block : EventBlock) (s : State) : Host.Outcome State Fault Refusal :=
  whileUp s fun s =>
    if s.triggers.claim.isSome then noStep s
    else
      match oldestEvent block s.handed.events with
      | none => noStep s
      | some e => finish (takeEvent e s)

/-! ## The answers to a slot's request (R109 to R111) -/

/-- A defined slot after a successful admission: the replaced handle out of the list, the new one at
its end, and a shot used when shots are counted (R109). -/
def SlotUse.admitted (replaced : Option Handle) (h : Handle) : SlotUse → SlotUse
  | .empty => .empty
  | .defined d st left l =>
      let l' := l.filter (fun x => some x ≠ replaced) ++ [h]
      if d.shots = 0 then .defined d st left l'
      else if left ≤ 1 then .defined d .spent 0 l'
      else .defined d st (left - 1) l'

/-- A TRIGGER_MISS notice, with the value as it stands and the template's label (R111). -/
def offerMiss (k : Fin 16) (m : MissDetail) (body : Template) (s : State) : State :=
  offerNotice (.triggerMiss k m) s.time.value body.label s

/-- The slot takes the Action Table's answer (R109, R110, R111). -/
def takeAnswer (r : AdmissionRequest) (a : AdmitAnswer) (s : State) : State :=
  match a with
  | .handle h =>
      setTriggerSlot r.slot { s.triggers.slots[r.slot] with
        use := s.triggers.slots[r.slot].use.admitted r.replaces h } s
  | .range => countMiss r.slot s
  | .tableFull => offerMiss r.slot .tableFull r.template (countMiss r.slot s)
  | .past => offerMiss r.slot .past r.template (countMiss r.slot s)

/-- After a slot's exchange is finished the next slots are visited (R104). They are visited within the
step that takes the answer, so that no tick, removal report or other claim falls between the end of
one slot's exchange and the visit of the next slot, a DESIGN CHOICE (notes/assumptions/20.md). -/
def continueVisit (e : SourceEvent) (k : Fin 16) (s : State) : State :=
  visitSlots e (allTriggerSlots.drop (k.val + 1)) s

/-- The Action Table takes the Trigger Table's plain admission request and answers it; the slot takes
the answer and the visit goes on (R28, R106, R109 to R111). -/
def execTriggerAdmissionRequest (s : State) : Host.Outcome State Fault Refusal :=
  whileUp s fun s =>
    match s.triggers.claim with
    | some (.event e r) =>
        match r.replaces with
        | some _ => noStep s
        | none =>
            let (a, s) := plainAdmission r.template r.due (.trigger r.slot) s
            finish (continueVisit e r.slot (takeAnswer r a s))
    | some (.clearing _ _) | none => noStep s

/-- The Action Table takes the Trigger Table's replacement request and answers it; the slot takes the
answer and the visit goes on (R29, R108 to R111). -/
def execReplacementAdmission (s : State) : Host.Outcome State Fault Refusal :=
  whileUp s fun s =>
    match s.triggers.claim with
    | some (.event e r) =>
        match r.replaces with
        | none => noStep s
        | some old =>
            let (a, s) := replaceAdmission old r.template r.due (.trigger r.slot) s
            finish (continueVisit e r.slot (takeAnswer r a s))
    | some (.clearing _ _) | none => noStep s

/-- One cancel request: a live handle's record leaves CANCELLED, one no longer live is passed over
(R39). -/
def cancelHandle (h : Handle) (s : State) : State :=
  match findRecord h s with
  | none => s
  | some r => removeRecord r .cancelled s.time.value s

/-- The end of a TRIGGER_CLEAR with CANCEL: its reply is made, with the number of handles the list
held (R116). -/
def endClear (count : Nat) (s : State) : State :=
  match s.cmd.queue with
  | [] => s
  | c :: _ => answer c .ok (be 1 count) s

/-- The Action Table takes one cancel request of a TRIGGER_CLEAR with CANCEL; after the last the
reply is queued (R39, R116, R164). -/
def execTriggerCancelRequest (s : State) (go : Extent := .toReply) : Host.Outcome State Fault Refusal :=
  whileUp s fun s =>
    match s.triggers.claim with
    | some (.clearing (h :: rest) count) =>
        let s := cancelHandle h s
        if rest.isEmpty then finish (goOn go (endClear count (setClaim none s)))
        else finish (setClaim (some (.clearing rest count)) s)
    | some (.clearing [] _) | some (.event _ _) | none => noStep s

end Sys2Proof.Machine
end

