-- ==== Sys2Proof/Machine/Dispatch.lean ====
section
/-! DEFINITION. One arm per command and event of the part, in the table's order. -/

namespace Sys2Proof.Machine

def exec (i : Instr) (s : State) : Host.Outcome State Fault Refusal :=
  match i with
  | .hello go => Sys2Proof.Machine.execHello s go
  | .status go => Sys2Proof.Machine.execStatus s go
  | .reset option go => Sys2Proof.Machine.execReset option s go
  | .clock source prescaler go => Sys2Proof.Machine.execClock source prescaler s go
  | .setTime value go => Sys2Proof.Machine.execSetTime value s go
  | .start gatePin go => Sys2Proof.Machine.execStart gatePin s go
  | .stop go => Sys2Proof.Machine.execStop s go
  | .gate gating polarity gatePin go => Sys2Proof.Machine.execGate gating polarity gatePin s go
  | .getTime go => Sys2Proof.Machine.execGetTime s go
  | .schedule f go => Sys2Proof.Machine.execSchedule f s go
  | .cancel gen slot go => Sys2Proof.Machine.execCancel gen slot s go
  | .cancelLine line release go => Sys2Proof.Machine.execCancelLine line release s go
  | .listActions position go => Sys2Proof.Machine.execListActions position s go
  | .await gen slot timeout go => Sys2Proof.Machine.execAwait gen slot timeout s go
  | .line line mode idle go => Sys2Proof.Machine.execLine line mode idle s go
  | .drive line level go => Sys2Proof.Machine.execDrive line level s go
  | .lineStatus go => Sys2Proof.Machine.execLineStatus s go
  | .channel f pin go => Sys2Proof.Machine.execChannel f pin s go
  | .channelOff channel go => Sys2Proof.Machine.execChannelOff channel s go
  | .channelStatus channel go => Sys2Proof.Machine.execChannelStatus channel s go
  | .sampler enable acquisition go => Sys2Proof.Machine.execSampler enable acquisition s go
  | .window input low high queue go => Sys2Proof.Machine.execWindow input low high queue s go
  | .trigger f go => Sys2Proof.Machine.execTrigger f s go
  | .triggerArm slot target go => Sys2Proof.Machine.execTriggerArm slot target s go
  | .triggerClear slot disposal go => Sys2Proof.Machine.execTriggerClear slot disposal s go
  | .triggerStatus slot go => Sys2Proof.Machine.execTriggerStatus slot s go
  | .stream f go => Sys2Proof.Machine.execStream f s go
  | .read n go => Sys2Proof.Machine.execRead n s go
  | .release n go => Sys2Proof.Machine.execRelease n s go
  | .ack sequence => Sys2Proof.Machine.execAck sequence s
  | .tickClockPeriod gatePin taken => Sys2Proof.Machine.execTickClockPeriod gatePin s taken
  | .channelSample n pin => Sys2Proof.Machine.execChannelSample n pin s
  | .stampOffer block => Sys2Proof.Machine.execStampOffer block s
  | .triggerSourceEvent block => Sys2Proof.Machine.execTriggerSourceEvent block s
  | .triggerAdmissionRequest => Sys2Proof.Machine.execTriggerAdmissionRequest s
  | .replacementAdmission => Sys2Proof.Machine.execReplacementAdmission s
  | .triggerCancelRequest go => Sys2Proof.Machine.execTriggerCancelRequest s go
  | .endOfAcquisition level => Sys2Proof.Machine.execEndOfAcquisition level s
  | .endOfConversion => Sys2Proof.Machine.execEndOfConversion s
  | .recoveryEnd => Sys2Proof.Machine.execRecoveryEnd s
  | .holdTimeReached => Sys2Proof.Machine.execHoldTimeReached s
  | .retransmitExpiry => Sys2Proof.Machine.execRetransmitExpiry s
  | .frameReceived c => Sys2Proof.Machine.execFrameReceived c s
  | .lengthError c => Sys2Proof.Machine.execLengthError c s
  | .gapExpiry => Sys2Proof.Machine.execGapExpiry s
  | .endOfTransmission => Sys2Proof.Machine.execEndOfTransmission s
  | .awaitTimeout tag => Sys2Proof.Machine.execAwaitTimeout tag s
  | .resetApplies => Sys2Proof.Machine.execResetApplies s
  | .powerOn rate1 rate0 => Sys2Proof.Machine.execPowerOn rate1 rate0 s
  | .resetPin => Sys2Proof.Machine.execResetPin s
  | .resetPinRelease rate1 rate0 => Sys2Proof.Machine.execResetPinRelease rate1 rate0 s
  | .postResetIdleEnd => Sys2Proof.Machine.execPostResetIdleEnd s
  | .byteTaken c => Sys2Proof.Machine.execByteTaken c s
  | .sourcePeriod => Sys2Proof.Machine.execSourcePeriod s

end Sys2Proof.Machine
end

