-- ==== Sys2Proof/Machine/Step.lean ====
section
/-! DEFINITION. One step of the part, and the host's way to put a command in front. -/

namespace Sys2Proof.Machine

/-- One step: the command or event at the front of the queue is taken, with the queue's rest waiting;
on an empty queue a microsecond passes (notes/assumptions/11.md). -/
def step (s : State) : Host.Outcome State Fault Refusal :=
  match s.pending with
  | [] => passTime s
  | c :: rest => exec c (s.withPending rest)

/-- The state with the command that a word spells at the front of its queue. The table gives no row
any bits, so no word spells a command and the state is unchanged (notes/assumptions/17.md). -/
def State.withFetchWord (s : State) (nbits w : Nat) : State :=
  match decodeTableWord nbits w with
  | some i => s.withPending (i :: s.pending)
  | none => s

end Sys2Proof.Machine
end

