-- ==== Sys2Proof/Safety.lean ====
section
/-! DEFINITION. The terms in which the statements about the part speak: when a command executes, what
an answered command leaves, and the laws that every step keeps. -/

namespace Sys2Proof.Machine

/-! ## Commands -/

/-- The kinds whose commands are claims of the Trigger Table (R103). -/
def triggerKinds : List Byte := [kindTrigger, kindTriggerArm, kindTriggerClear, kindTriggerStatus]

/-- The interpreter is free to start the oldest command: the RESET pin is not held (R176), no
TRIGGER_CLEAR with CANCEL is under execution, and nothing of the oldest command's execution has been
done (R164). -/
structure MayStart (s : State) : Prop where
  up : s.pins.resetActive = false
  free : interpreterBusy s = false
  fresh : s.cmd.progress = .notStarted

/-- The interpreter may execute a command of this kind: it is free, and a command of the Trigger Table
finds no claim of it in progress (R103, R164). -/
structure MayExecute (kind : Byte) (s : State) : Prop where
  start : MayStart s
  table : kind ∈ triggerKinds → s.triggers.claim = none

/-- The interpreter executes the host command i now, however far the step carries it: it may, and i is
the oldest command c of the command queue (R164). -/
structure Executes (i : Extent → Instr) (c : QueuedCommand) (s : State) : Prop where
  may : MayExecute c.kind s
  oldest : s.cmd.queue.head? = some c
  frame : ∀ go, frameOf (i go) = some (c.kind, c.payload)
  extent : ∀ go, extentOf (i go) = some go

/-- What the filling of c's reply leaves, u being the state with the command's own effect: every block
but the command block's queue, slots and progress, the transmitter and the Notice Queue is as in u; c
has left the front of the queue and nothing is under execution; its slot holds the reply, FILLED, or
SENDING when the transmitter was idle; any other slot is untouched but that an idle transmitter may
have begun the reply it held (R164, R165, R189). Where notices were left waiting the Notice Queue has
taken some of them, and with none waiting it is as in u; one ending has been used. -/
structure Filled (c : QueuedCommand) (r : Reply) (u t : State) : Prop where
  blocks : t = ((((u.withCmd t.cmd).withTx t.tx).withNotices t.notices).withOffered
    t.offered).withEndings t.endings
  reply : t.cmd.slots[c.slot] = .filled r ∨ t.cmd.slots[c.slot] = .sending r
  queue : t.cmd.queue = u.cmd.queue.tail
  progress : t.cmd.progress = .notStarted
  others : ∀ i : Fin 16, i ≠ c.slot → t.cmd.slots[i] = u.cmd.slots[i]
    ∨ ∃ r, u.cmd.slots[i] = .filled r ∧ t.cmd.slots[i] = .sending r
  awaits : t.cmd.awaits = u.cmd.awaits
  resetPending : t.cmd.resetPending = u.cmd.resetPending
  counts : t.cmd.accepted = u.cmd.accepted ∧ t.cmd.refused = u.cmd.refused
    ∧ t.cmd.refusalsLost = u.cmd.refusalsLost ∧ t.cmd.tagZero = u.cmd.tagZero
  waits : u.tx.state ≠ .idle → t.tx.state = u.tx.state
    ∧ t.cmd.replyQueue = u.cmd.replyQueue ++ [c.slot]
  notices : ∃ taken : List NoticeOffer, (taken ++ t.offered).Perm u.offered
    ∧ t.notices = (admitAll taken u).notices
  endings : t.endings = u.endings.tail

/-- The command c has been answered with this status and these fields, u being the state with the
command's own effect: the await list has taken the reports of its removals, and then the reply has
filled c's slot (R164, R165, R168). -/
def Answered (c : QueuedCommand) (st : Status) (fields : Payload) (u t : State) : Prop :=
  Filled c (replyTo c st fields) (takeRemovals u) t

/-- Command i at s answers a next state: u, the state with the command's effect, once the command c
has been answered with this status and these fields, when the step goes on to the reply; and u with
that reply made, to fill its slot in a later step, when it makes one claim (R164). -/
def Replies (i : Extent → Instr) (s : State) (c : QueuedCommand) (st : Status) (fields : Payload)
    (u : State) : Prop :=
  (∃ t, exec (i .toReply) s = .next t ∧ Answered c st fields u t)
  ∧ exec (i .oneClaim) s = .next (settle (u.withCmd { u.cmd with
      progress := .replying (replyTo c st fields) }))

/-- Nothing is left over from an earlier step, and the next step has the usual ending: no notice and no
removal report waits, no boundary is called for, and no ending is set. Every step with the usual
ending leaves no notice, no report and no call. -/
structure Quiet (s : State) : Prop where
  offered : s.offered = []
  removals : s.removals = []
  told : s.tx.told = false
  endings : s.endings = []

/-- The entries of an await list that no removal report names. -/
def unreported (awaits : List AwaitEntry) (removals : List RemovalReport) : List AwaitEntry :=
  awaits.filter (fun a => !removals.any (fun x => a.handle = x.handle))

/-- The end of a step touches nothing but what its claims do: the offers of notices and the Notice Queue,
the removal reports, none of which is left, and the await entries they answer, which leave the list,
what the arbiter's sources hand over at a boundary (the reply slots and their queue, the report stream
and the states of the stamp entries), the transmitter, and the endings still to come (R146, R168,
R189). -/
def SettlesTo (u t : State) : Prop :=
  t = (((((((u.withCmd t.cmd).withNotices t.notices).withStream t.stream).withStamps t.stamps).withTx
      t.tx).withOffered t.offered).withRemovals []).withEndings t.endings
    ∧ (t.tx.told = true → t.tx.state = .idle)
    ∧ t.cmd.queue = u.cmd.queue
    ∧ t.cmd.awaits = unreported u.cmd.awaits u.removals
    ∧ t.endings = u.endings.tail

/-! ## Laws of the state -/

/-- The values R17 and R101 allow in the fields of a record: a pulse has a width and a repeat has a
period. -/
structure Template.Valid (b : Template) : Prop where
  width : ∀ n w, b.action = .pulse n w → 1 ≤ w
  period : ∀ rep, b.repeats = some rep → 1 ≤ rep.period

/-- Every template in the part is valid: the live records', the triggers', and that of a request
under way. -/
structure TemplatesValid (s : State) : Prop where
  records : ∀ r ∈ s.table.records, r.body.Valid
  slots : ∀ (k : Fin 16) (d : TriggerDef) (st : ArmState) (n : Nat) (l : List Handle),
    s.triggers.slots[k].use = .defined d st n l → d.template.Valid
  claim : ∀ e r, s.triggers.claim = some (.event e r) → r.template.Valid

/-- The timebase value stands within the span, and a run has a tick left to take (R2, R9, R13). -/
structure TimeInSpan (s : State) : Prop where
  value : s.time.value ≤ Config.maxTime
  run : s.time.run ≠ .stopped → s.time.value < Config.maxTime

/-- The laws of the Action Table: table order, one live record a slot under the slot's generation,
no generation 0, due times within the span, and in a run none at or before the value (R19 to
R22). -/
structure TableInOrder (s : State) : Prop where
  span : TimeInSpan s
  templates : TemplatesValid s
  order : s.table.records.Pairwise (fun a b => a.before b = true)
  slots : s.table.records.Pairwise (fun a b => a.handle.slot ≠ b.handle.slot)
  standings : s.table.records.Pairwise (fun a b => a.standing ≠ b.standing)
  admitted : ∀ r ∈ s.table.records, r.standing < s.table.nextStanding
  gens : ∀ r ∈ s.table.records, r.handle.gen = s.table.gens[r.handle.slot]
  nonzero : ∀ i : Fin 64, s.table.gens[i] ≠ 0
  due : ∀ r ∈ s.table.records, r.due ≤ Config.maxTime
  future : s.time.run ≠ .stopped → ∀ r ∈ s.table.records, s.time.value < r.due

/-- A running pulse stands only on a SCHEDULED line, at the active level, with its end still to come
(R46, R48). -/
structure PulsesLegal (s : State) : Prop where
  templates : TemplatesValid s
  pulses : ∀ (n : Fin 8) (p : Pulse), s.lines[n].pulse = some p →
    s.lines[n].mode = .scheduled ∧ s.lines[n].level = s.lines[n].active
      ∧ s.time.value < p.endTick

/-- A channel's configuration is one CHANNEL accepts, and its working state keeps within it: the edge
count below the divisor, the priming count and the held count within the filter, and in WIDTH mode
the settled level before a leading edge in ARMED and after one in MEASURING; a channel in OFF owes no
sample (R65, R66, R68, R69, R71, R73, R76). -/
structure Channel.Legal (ch : Channel) : Prop where
  divisor : 1 ≤ ch.config.divisor ∧ ch.config.divisor ≤ 255
  filter : ch.config.filter ≤ 15
  edge : ch.config.mode = .width ↔ ch.config.edge = .high ∨ ch.config.edge = .low
  width : ch.config.mode = .width → ch.config.divisor = 1
  count : ch.edgeCount < ch.config.divisor
  off : ch.run = .off → ch.edgeCount = 0 ∧ ch.sampling ≠ .due
  modeOff : ch.config.mode = .off → ch.run = .off
  priming : ∀ k, ch.run = .priming k → k ≤ ch.config.filter ∧ ch.config.edge ≠ .both
  armed : ∀ v p, ch.run = .armed v (some p) → p.level = v.flip ∧ p.held < ch.config.filter
  measuring : ∀ v p t, ch.run = .measuring v (some p) t →
    p.level = v.flip ∧ p.held < ch.config.filter
  settledArmed : ∀ v p, ch.config.mode = .width → ch.run = .armed v p →
    v = ch.config.edge.preceding
  settledMeasuring : ∀ v p t, ch.config.mode = .width → ch.run = .measuring v p t →
    v = ch.config.edge.preceding.flip
  noReference : ∀ v p t, ch.config.mode = .edge → ch.run ≠ .measuring v p t

/-- Every channel is legal. -/
def ChannelsLegal (s : State) : Prop := ∀ n : Fin 8, s.channels[n].Legal

/-- The sampler's settings are in range and a recovering converter has a recovery end (R87, R88). -/
structure SamplerLegal (s : State) : Prop where
  acquisition : 2 ≤ s.sampler.acquisition ∧ s.sampler.acquisition ≤ 255
  recovering : s.sampler.conv = .recovering → s.sampler.recoveryEnd.isSome
  windows : ∀ i : Fin 4, s.sampler.inputs[i].low ≤ s.sampler.inputs[i].high
    ∧ s.sampler.inputs[i].high ≤ 4095

/-- The reports of a window are numbered consecutively, the next number following the last (R133,
R134). -/
def Consecutive : List Report → Byte → Prop
  | [], _ => True
  | [r], next => nextSequenceAfter r.sequence = next
  | r :: r' :: rs, next => nextSequenceAfter r.sequence = r'.sequence ∧ Consecutive (r' :: rs) next

/-- The entries that a window's reports carry, in window order, each with its state (R122, R133). -/
def carriedEntries (window : List Report) : List (EntryState × StampContent) :=
  window.flatMap (fun r => r.contents.map (fun c => (EntryState.inFlight r.sequence, c)))

/-- The laws of the Stamp Queue and the report stream: the queue is the window's entries, IN_FLIGHT
under their reports' numbers, and then WAITING ones; reports are consecutively numbered and hold 1
to batch entries; only an ON stream has a window; the configuration is in range (R121, R122, R126,
R133, R134, R137). -/
structure StreamLegal (s : State) : Prop where
  capacity : s.stamps.entries.length ≤ Config.stampCapacity
  entries : ∃ waiting : List StampEntry, (∀ e ∈ waiting, e.state = .waiting)
    ∧ s.stamps.entries.map (fun e => (e.state, e.content))
        = carriedEntries s.stream.window ++ waiting.map (fun e => (e.state, e.content))
  window : s.stream.window.length ≤ Config.windowCapacity
  numbered : Consecutive s.stream.window s.stream.nextSequence
  nonzero : s.stream.nextSequence ≠ 0 ∧ ∀ r ∈ s.stream.window, r.sequence ≠ 0
  sizes : ∀ r ∈ s.stream.window, 1 ≤ r.contents.length ∧ r.contents.length ≤ s.stream.batch
  on : s.stream.state ≠ .on → s.stream.window = [] ∧ s.stream.retryCount = 0
  timer : s.stream.window = [] → s.stream.timer = none
  batch : 1 ≤ s.stream.batch ∧ s.stream.batch ≤ 8
  hold : s.stream.hold ≤ 250
  interval : 10 ≤ s.stream.interval ∧ s.stream.interval ≤ 1000
  retry : 1 ≤ s.stream.retryLimit ∧ s.stream.retryLimit ≤ 15
    ∧ s.stream.retryCount ≤ s.stream.retryLimit

/-- The slots that queued commands and waiting awaits hold. -/
def heldSlots (b : CommandBlock) : List (Fin 16) :=
  b.queue.map QueuedCommand.slot ++ b.awaits.map AwaitEntry.slot

/-- The tags in use (R163). -/
def usedTags (b : CommandBlock) : List Byte :=
  b.queue.map QueuedCommand.tag ++ b.awaits.map AwaitEntry.tag

/-- The laws of the command block and the transmitter: the RESERVED slots are those of the queued
commands and awaits, one each; the FILLED ones are the reply queue; a SENDING one is the frame under
way; tags in use are distinct and not 0; while a soft reset is pending nothing is queued; the
command under execution stands at the front of the queue, be it a TRIGGER_CLEAR whose cancel requests
are under way, a STATUS with readings still to make, or one whose reply is made; and a transmitter
that is idle, with no boundary called for, has no reply to send, nor a notice or a marked resend when
it may send them (R116, R158, R159, R163, R164, R171, R173, R189, R191). -/
structure SlotsLegal (s : State) : Prop where
  capacity : s.cmd.queue.length ≤ Config.commandCapacity ∧ s.cmd.awaits.length ≤ Config.awaitCapacity
  held : (heldSlots s.cmd).Nodup
  reserved : ∀ i : Fin 16, s.cmd.slots[i] = .reserved ↔ i ∈ heldSlots s.cmd
  queued : s.cmd.replyQueue.Nodup
  filled : ∀ i : Fin 16, (∃ r, s.cmd.slots[i] = .filled r) ↔ i ∈ s.cmd.replyQueue
  sending : ∀ (i : Fin 16) (r : Reply), s.cmd.slots[i] = .sending r ↔
    s.tx.state = .sending (.reply i) ⟨r.tag, r.kind, r.payload⟩
  tags : (usedTags s.cmd).Nodup ∧ (0 : Byte) ∉ usedTags s.cmd
  pending : s.cmd.resetPending.isSome → s.cmd.queue = [] ∧ s.cmd.awaits = []
  clearing : interpreterBusy s = true → s.cmd.progress = .notStarted
    ∧ ∃ c, s.cmd.queue.head? = some c ∧ c.kind = kindTriggerClear
  reading : ∀ made, s.cmd.progress = .reading made → made.length < statusReadingCount
    ∧ ∃ c, s.cmd.queue.head? = some c ∧ c.kind = kindStatus
  replying : ∀ r, s.cmd.progress = .replying r →
    ∃ c, s.cmd.queue.head? = some c ∧ r.tag = c.tag ∧ r.kind = replyKind c.kind
  told : s.tx.told = true → s.tx.state = .idle
  idleReplies : s.tx.state = .idle → s.tx.told = false → s.cmd.replyQueue = []
  idleNotices : s.tx.state = .idle → s.tx.told = false → s.cmd.resetPending = none →
    s.notices.queue = [] ∧ ∀ r ∈ s.stream.window, r.marked = false

/-- The laws of the Trigger Table: a slot's list keeps within its limit, holds no handle twice and
names live records of that slot's origin; a slot is SPENT exactly when its counted shots are used
up; and a request under way is one its slot could make (R102, R108, R109). -/
structure TriggersLegal (s : State) : Prop where
  table : TableInOrder s
  limit : ∀ (k : Fin 16) d st n l, s.triggers.slots[k].use = .defined d st n l →
    l.length ≤ d.limit ∧ 1 ≤ d.limit ∧ d.limit ≤ 8
  nodup : ∀ (k : Fin 16) d st n l, s.triggers.slots[k].use = .defined d st n l → l.Nodup
  live : ∀ (k : Fin 16) d st n l, s.triggers.slots[k].use = .defined d st n l → ∀ h ∈ l,
    ∃ r ∈ s.table.records, r.handle = h ∧ r.origin = .trigger k
  shots : ∀ (k : Fin 16) d st n l, s.triggers.slots[k].use = .defined d st n l →
    n ≤ d.shots ∧ (st = .spent ↔ d.shots ≠ 0 ∧ n = 0)
  request : ∀ e r, s.triggers.claim = some (.event e r) →
    ∃ d n l, s.triggers.slots[r.slot].use = .defined d .armed n l
      ∧ match r.replaces with
        | none => l.length < d.limit
        | some h => h ∈ l ∨ l.length < d.limit

/-- Every await waits on a live record (R166 to R168). -/
structure AwaitsLive (s : State) : Prop where
  live : ∀ a ∈ s.cmd.awaits, ∃ r ∈ s.table.records, r.handle = a.handle

/-- The bytes of the frame under assembly that its running check covers (R182, R185). -/
def Receiver.covered (r : Receiver) : Payload :=
  match r.state with
  | .hunt | .len => []
  | .tag => [BitVec.ofNat 8 r.length]
  | .kind => [BitVec.ofNat 8 r.length, r.tag]
  | .body | .crcHi | .crcLo => [BitVec.ofNat 8 r.length, r.tag, r.kind] ++ r.payload

/-- The laws of the receive machine: in HUNT there is no gap expiry and in every other state there is
one; the payload has room while BODY lasts and is whole afterwards; the running check is that of the
bytes taken (R181, R182, R184, R185). -/
structure ReceiverLegal (s : State) : Prop where
  length : s.rx.length ≤ Config.maxPayload
  gap : s.rx.gapExpiry = none ↔ s.rx.state = .hunt
  early : s.rx.state ∈ [.hunt, .len, .tag, .kind] → s.rx.payload = []
  body : s.rx.state = .body → s.rx.payload.length < s.rx.length
  whole : s.rx.state ∈ [.crcHi, .crcLo] → s.rx.payload.length = s.rx.length
  check : s.rx.state ≠ .hunt → s.rx.check = crcOf s.rx.covered

/-- While the RESET pin is held active every block stands at its reset values, the Notice Queue is
empty and TXD is held HIGH (R150, R176, R193). The hand-overs and offers that no block had taken
stand. -/
def HeldAtReset (s : State) : Prop :=
  s.pins.resetActive = true →
    s = { State.reset with
            sampler := { Sampler.reset with recoveryEnd := s.sampler.recoveryEnd }
            notices := { queue := [], lost := 0, dropped := 0 }
            rate := s.rate
            pins := s.pins
            now := s.now
            handed := s.handed
            offered := s.offered
            endings := s.endings
            pending := s.pending }

end Sys2Proof.Machine
end

