-- ==== Sys2Proof/WellFormed.lean ====
section
/-! DEFINITION. When a command is well formed: each field holds a value its rule accepts (R197 and
the owning rules), before any state is looked at. A host command that is not well formed is one the
part answers BAD_FIELD; what depends on the state (STATE, NO_SUCH, RELEASE's count) is no part of
it. -/

namespace Sys2Proof

/-- A report policy code, with n where the policy is EVERY (R23, R197). -/
def reportOk (report n : Byte) : Bool :=
  report.toNat ≤ 2 || (report.toNat == 3 && decide (2 ≤ n.toNat ∧ n.toNat ≤ 16))

/-- The action fields that SCHEDULE and a trigger's template share (R23, R114 check 5): the target
is checked for the kinds that have one, the width for PULSE, and every label is accepted. -/
def actionOk (f : TemplateFields) : Bool :=
  decide (f.kind.toNat ≤ 5)
    && (decide (f.kind.toNat ≤ 3 → f.target.toNat ≤ 7))
    && (decide (f.kind.toNat = 4 → f.target.toNat ≤ 3))
    && (decide (f.kind.toNat = 3 → f.width ≠ 0))
    && reportOk f.report f.n
    && decide (f.late.toNat ≤ 1)

/-- A handle field: generation 1..255 and slot 0..63 (R39, R166). -/
def handleOk (gen slot : Byte) : Bool := decide (gen ≠ 0 ∧ slot.toNat ≤ 63)

/-- A channel's edge selection for its mode: RISING, FALLING or BOTH for OFF, EDGE and PERIOD; HIGH
or LOW for WIDTH (R81 check 3). -/
def edgeOk (mode edge : Byte) : Bool :=
  if mode.toNat = 2 then decide (edge.toNat = 3 ∨ edge.toNat = 4) else decide (edge.toNat ≤ 2)

/-- The source fields of a TRIGGER (R114 check 2, R196). -/
def sourceOk (f : TriggerFields) : Bool :=
  match f.sourceKind.toNat with
  | 0 => decide (f.sourceNumber.toNat ≤ 7)
  | 1 => decide (f.sourceNumber.toNat ≤ 3 ∧ 1 ≤ f.sourceZone.toNat ∧ f.sourceZone.toNat ≤ 3)
  | 2 => decide (f.sourceLabel ≠ 0)
  | _ => false

/-- Every field of the command holds a value its owning rule accepts. -/
def wellFormed : Instr → Bool
  | .hello _ | .status _ | .stop _ | .getTime _ | .lineStatus _ => true
  | .reset option _ => decide (option.toNat ≤ 1)
  | .clock source prescaler _ =>
      decide (source.toNat ≤ 1) && decide (prescaler.toNat ∈ [1, 2, 4, 8, 16, 32, 64, 128])
  | .setTime value _ => decide (value.toNat ≠ Config.maxTime)
  | .start _ _ => true
  | .gate gating polarity _ _ => decide (gating.toNat ≤ 1 ∧ polarity.toNat ≤ 1)
  | .schedule f _ => actionOk f.action && decide (f.dueMode.toNat ≤ 1)
  | .cancel gen slot _ => handleOk gen slot
  | .cancelLine line release _ => decide (line.toNat ≤ 7 ∧ release.toNat ≤ 1)
  | .listActions _ _ => true
  | .await gen slot _ _ => handleOk gen slot
  | .line line mode idle _ => decide (line.toNat ≤ 7 ∧ mode.toNat ≤ 1 ∧ idle.toNat ≤ 1)
  | .drive line level _ => decide (line.toNat ≤ 7 ∧ level.toNat ≤ 1)
  | .channel f _ _ =>
      decide (f.channel.toNat ≤ 7 ∧ f.mode.toNat ≤ 3) && edgeOk f.mode f.edge
        && decide (f.divisor ≠ 0 ∧ (f.mode.toNat = 2 → f.divisor = 1))
        && decide (f.filter.toNat ≤ 15 ∧ f.queue.toNat ≤ 1)
  | .channelOff channel _ => decide (channel.toNat ≤ 7)
  | .channelStatus channel _ => decide (channel.toNat ≤ 7)
  | .sampler enable acquisition _ => decide (enable.toNat ≤ 1 ∧ 2 ≤ acquisition.toNat)
  | .window input low high queue _ =>
      decide (input.toNat ≤ 3 ∧ low.toNat ≤ 4095 ∧ high.toNat ≤ 4095 ∧ low.toNat ≤ high.toNat
        ∧ queue.toNat ≤ 1)
  | .trigger f _ =>
      decide (f.slot.toNat ≤ 15) && sourceOk f && decide (f.delay ≠ 0)
        && decide (1 ≤ f.limit.toNat ∧ f.limit.toNat ≤ 8 ∧ f.atLimit.toNat ≤ 1)
        && actionOk f.template
  | .triggerArm slot target _ =>
      decide (slot.toNat ≤ 15 ∧ (target.toNat = 1 ∨ target.toNat = 2))
  | .triggerClear slot disposal _ => decide (slot.toNat ≤ 15 ∧ disposal.toNat ≤ 1)
  | .triggerStatus slot _ => decide (slot.toNat ≤ 15)
  | .stream f _ =>
      decide (f.enable.toNat ≤ 1 ∧ 1 ≤ f.batch.toNat ∧ f.batch.toNat ≤ 8 ∧ f.hold.toNat ≤ 250
        ∧ 10 ≤ f.interval.toNat ∧ f.interval.toNat ≤ 1000
        ∧ 1 ≤ f.retryLimit.toNat ∧ f.retryLimit.toNat ≤ 15)
  | .read n _ => decide (1 ≤ n.toNat ∧ n.toNat ≤ 8)
  | .release _ _ => true
  | .ack _ => true
  | .lengthError c => decide (c.startMid = .low ∧ 120 < c.data.toNat)
  | .frameReceived c => decide (c.startMid = .low)
  | .awaitTimeout tag => decide (tag ≠ 0)
  | .tickClockPeriod _ _ | .channelSample _ _ | .stampOffer _ | .triggerSourceEvent _
  | .triggerAdmissionRequest | .replacementAdmission | .triggerCancelRequest _
  | .endOfAcquisition _ | .endOfConversion | .recoveryEnd | .holdTimeReached | .retransmitExpiry
  | .gapExpiry | .endOfTransmission | .resetApplies | .powerOn _ _ | .resetPin
  | .resetPinRelease _ _ | .postResetIdleEnd | .byteTaken _ | .sourcePeriod => true

/-- A host command's fields are in range; how far a step carries its execution is no field of it. -/
def inRange (i : Extent → Instr) : Bool := wellFormed (i .toReply)

end Sys2Proof
end

