-- ==== Sys2Proof/Certificates/Slice0/Obligations.lean ====
section
/-! DEFINITION. The statements about the model, for the provers. A statement about a command says what
a next state of it is (`Replies`: it answers one, with the reply filled or with it made and still to
fill its slot, and the frame); one about an event gives the next state, before the claims that end the
step (`settle`), whose own statements are `BoundaryAsksItsSourcesInOrder` and
`NoticeIsAdmittedOrDroppedAndCounted`. -/

section Statements

open Sys2Proof Sys2Proof.Machine

/-! ## The step, the frames and the reset values -/

/-- The step of a state with a command in front is that command's effect with the queue's rest. -/
def Obligations.StepRunsTheFrontCommand : Prop :=
  ∀ (c : Instr) (rest : List Instr) (s : State), s.pending = c :: rest →
    step s = exec c (s.withPending rest)

/-- Encode, then decode: every host command's payload has its kind's length (R196), and reading it
gives the command back, with every field at every value its width admits. Decode, then encode: what
a payload is read as is the command that payload carries, at whatever levels the pins stand and
however far its step goes. -/
def Obligations.CommandFramesAndTheirReadingAgree : Prop :=
  (∀ (i : Instr) (k : Byte) (p : Payload), frameOf i = some (k, p) →
    lengthOf k = some p.length ∧ p.length ≤ Config.maxPayload
      ∧ ∃ gatePin inPin go, commandOf gatePin inPin go k p = some i)
  ∧ (∀ (gatePin inPin : Level) (go : Extent) (k : Byte) (p : Payload) (i : Instr),
    commandOf gatePin inPin go k p = some i → frameOf i = some (k, p))

/-- The manual's own examples: the check of 0x31..0x39 and the HELLO frame (section 10.2, R185), the
SCHEDULE of section 11.6 and its reading, and the PERIOD entry of section 11.6. Then one example of
every other record layout, written out from its table: an action record of a trigger and one of MARK
(section 11.5), two line states (section 11.4), EDGE, WIDTH and SAMPLE entries and a STAMPS report of
two entries, with the layout of every report (R198), and notices of every kind, READY with each of
its causes among them (R199). Then every code the part sends: the statuses (section 11.2) and the
codes of section 11.3. That bit 4 of a line state is 0 with no pulse running is the model's choice
(notes/assumptions/22.md). -/
def Obligations.TheManualsExamplesAreWrittenAsGiven : Prop :=
  crcOf [0x31, 0x32, 0x33, 0x34, 0x35, 0x36, 0x37, 0x38, 0x39] = 0x29B1
  ∧ frameBytes ⟨0x01, kindHello, []⟩ = [0xC3, 0x00, 0x01, 0x01, 0xEF, 0x8C]
  ∧ (∀ go : Extent, commandOf .low .low go 0x10 [0x03, 0x02, 0x00, 0x28, 0x01, 0x00, 0x00, 0x00,
      0x00, 0x04, 0xE2, 0x00, 0x00, 0x00, 0x00, 0x00, 0x00, 0x01, 0x00, 0x00, 0x00, 0x07]
    = some (.schedule ⟨⟨3, 2, 40, 0, 0, 1, 0, 0, 7⟩, 1, 1250⟩ go))
  ∧ stampBytes ⟨.period 3 200 false, 10350, none⟩
    = [0x23, 0x00, 0x00, 0x00, 0x00, 0x00, 0x28, 0x6E, 0x00, 0x00, 0x00, 0xC8, 0x00, 0x00]
  ∧ actionRecordBytes ⟨⟨3, 2⟩, ⟨.pulse 5 40, some ⟨1000, 9⟩, .every 16, .skip, some 0x0102⟩, 10350, 8,
      .trigger 15, 1, true, 0⟩
    = [0x03, 0x02, 0x03, 0x05, 0x00, 0x28, 0x00, 0x00, 0x00, 0x00, 0x28, 0x6E, 0x00, 0x00, 0x03, 0xE8,
       0x00, 0x08, 0x03, 0x10, 0x01, 0x01, 0x02, 0x0F, 0x00, 0x00, 0x00, 0x01, 0x01]
  ∧ actionRecordBytes ⟨⟨255, 63⟩, ⟨.mark, none, .last, .fire, none⟩, 281474976710655, 1, .host,
      0xFFFFFFFF, false, 7⟩
    = [0xFF, 0x3F, 0x05, 0x00, 0x00, 0x00, 0xFF, 0xFF, 0xFF, 0xFF, 0xFF, 0xFF, 0x00, 0x00, 0x00, 0x00,
       0x00, 0x00, 0x02, 0x00, 0x00, 0x00, 0x00, 0xFF, 0xFF, 0xFF, 0xFF, 0xFF, 0x00]
  ∧ lineStateBytes ⟨.scheduled, .low, .high, some ⟨10350, some 7, true⟩⟩
    = [0x1D, 0x00, 0x00, 0x00, 0x00, 0x00, 0x28, 0x6E, 0x00, 0x07]
  ∧ lineStateBytes ⟨.direct, .high, .low, none⟩ = [0x02, 0, 0, 0, 0, 0, 0, 0, 0, 0]
  ∧ stampBytes ⟨.edge 7 .falling, 10350, some 5⟩
    = [0x07, 0x01, 0x00, 0x00, 0x00, 0x00, 0x28, 0x6E, 0x00, 0x00, 0x00, 0x00, 0x00, 0x05]
  ∧ stampBytes ⟨.width 2 0xFFFFFFFF true, 10350, none⟩
    = [0x12, 0x02, 0x00, 0x00, 0x00, 0x00, 0x28, 0x6E, 0xFF, 0xFF, 0xFF, 0xFF, 0x00, 0x00]
  ∧ stampBytes ⟨.sample 1 2731 .above true (some 4), 70000, none⟩
    = [0x31, 0x34, 0x00, 0x00, 0x00, 0x01, 0x11, 0x70, 0x00, 0x04, 0x0A, 0xAB, 0x00, 0x00]
  ∧ reportPayload 200 [⟨.edge 7 .falling, 10350, some 5⟩, ⟨.period 3 200 false, 10350, none⟩]
    = [0xC8, 0x02,
       0x07, 0x01, 0x00, 0x00, 0x00, 0x00, 0x28, 0x6E, 0x00, 0x00, 0x00, 0x00, 0x00, 0x05,
       0x23, 0x00, 0x00, 0x00, 0x00, 0x00, 0x28, 0x6E, 0x00, 0x00, 0x00, 0xC8, 0x00, 0x00]
  ∧ (∀ (q : Byte) (l : List StampContent),
      reportPayload q l = [q, BitVec.ofNat 8 l.length] ++ (l.map stampBytes).flatten)
  ∧ (∀ (cause : ResetCause) (b : Byte), (cause, b) ∈ [(.power, 0), (.pin, 1), (.command, 2)] →
      noticeBytes ⟨.ready cause, 0, none, none⟩
        = [0x00, 0, 0, 0, 0, 0, 0, 0x00, 0x00, b, 0, 0, 0, 0, 0, 0, 0, 0])
  ∧ noticeBytes ⟨.timeEnd, 281474976710655, none, some 5⟩
    = [0x05, 0xFF, 0xFF, 0xFF, 0xFF, 0xFF, 0xFF, 0x00, 0x00, 0x00, 0, 0, 0, 0, 0, 0, 0x00, 0x05]
  ∧ noticeBytes ⟨.streamStalled, 10350, none, some 65535⟩
    = [0x06, 0x00, 0x00, 0x00, 0x00, 0x28, 0x6E, 0x00, 0x00, 0x00, 0, 0, 0, 0, 0, 0, 0xFF, 0xFF]
  ∧ noticeBytes ⟨.fired ⟨3, 2⟩ .busy 9, 10350, some 7, some 5⟩
    = [0x01, 0x00, 0x00, 0x00, 0x00, 0x28, 0x6E, 0x03, 0x02, 0x03, 0x00, 0x00, 0x00, 0x09, 0x00, 0x07,
       0x00, 0x05]
  ∧ noticeBytes ⟨.ended ⟨3, 2⟩ .range, 10350, none, none⟩
    = [0x02, 0x00, 0x00, 0x00, 0x00, 0x28, 0x6E, 0x03, 0x02, 0x03, 0, 0, 0, 0, 0, 0, 0, 0]
  ∧ noticeBytes ⟨.truncated 7, 10350, some 7, none⟩
    = [0x03, 0x00, 0x00, 0x00, 0x00, 0x28, 0x6E, 0x00, 0x07, 0x00, 0, 0, 0, 0, 0x00, 0x07, 0, 0]
  ∧ noticeBytes ⟨.triggerMiss 15 .past, 10350, none, none⟩
    = [0x04, 0x00, 0x00, 0x00, 0x00, 0x28, 0x6E, 0x00, 0x0F, 0x01, 0, 0, 0, 0, 0, 0, 0, 0]
  ∧ noticeBytes ⟨.linkError .tag0, 10350, none, none⟩
    = [0x07, 0x00, 0x00, 0x00, 0x00, 0x28, 0x6E, 0x00, 0x00, 0x03, 0, 0, 0, 0, 0, 0, 0, 0]
  ∧ [Status.ok, .queueFull, .dupTag, .unknownKind, .badLength, .badField, .state, .noSuch, .tableFull,
      .awaitFull, .past, .range, .timeout, .aborted].map Status.code
    = [0x00, 0x01, 0x02, 0x03, 0x04, 0x05, 0x06, 0x07, 0x08, 0x09, 0x0A, 0x0B, 0x0C, 0x0D]
  ∧ [RunState.stopped, .running, .held].map RunState.code = [0, 1, 2]
  ∧ [TickSource.internal, .refin].map TickSource.code = [0, 1]
  ∧ [false, true].map boolCode = [0, 1] ∧ [Level.low, .high].map levelCode = [0, 1]
  ∧ [LineMode.direct, .scheduled].map LineMode.code = [0, 1]
  ∧ (∀ (n : Fin 8) (w : Nat) (i : Fin 4),
      [Action.set n, .clear n, .toggle n, .pulse n w, .sample i, .mark].map Action.kindCode
        = [0, 1, 2, 3, 4, 5])
  ∧ (∀ n : Nat, [ReportPolicy.none, .each, .last, .every n].map ReportPolicy.code = [0, 1, 2, 3])
  ∧ [LatePolicy.fire, .skip].map LatePolicy.code = [0, 1]
  ∧ (∀ k : Fin 16, [Origin.host, .trigger k].map Origin.code = [255, BitVec.ofNat 8 k.val])
  ∧ [FiringStatus.normal, .late, .suppressed, .busy].map FiringStatus.code = [0, 1, 2, 3]
  ∧ [EndReason.done, .cancelled, .skipped, .range].map EndReason.code = [0, 1, 2, 3]
  ∧ [ChannelMode.off, .edge, .width, .period].map ChannelMode.code = [0, 1, 2, 3]
  ∧ [EdgeSelection.rising, .falling, .both, .high, .low].map EdgeSelection.code = [0, 1, 2, 3, 4]
  ∧ (∀ (k : Nat) (v : Level) (p : Option Pending) (t : Time),
      [ChannelRun.off, .priming k, .armed v p, .measuring v p t].map ChannelRun.code = [0, 1, 2, 3])
  ∧ (∀ (x : ConvContext) (h : BitVec 12) (m : Moment),
      [Converter.off, .idle, .acquiring x m, .converting x h m, .recovering].map Converter.code
        = [0, 1, 2, 3, 4])
  ∧ [none, some ZoneClass.below, some .inside, some .above].map zoneCode = [0, 1, 2, 3]
  ∧ (∀ (d : TriggerDef) (n : Nat) (l : List Handle), [SlotUse.empty, .defined d .armed n l,
      .defined d .paused n l, .defined d .spent n l].map SlotUse.code = [0, 1, 2, 3])
  ∧ [StreamState.off, .on, .stalled].map StreamState.code = [0, 1, 2]
  ∧ [MissDetail.tableFull, .past].map MissDetail.code = [0, 1]
  ∧ [LinkErrorKind.length, .gap, .check, .tag0].map LinkErrorKind.code = [0, 1, 2, 3]

/-- The bytes the transmitter builds for a frame, taken one after the other by a receive machine in
HUNT, end in that frame's tag, kind and payload handed to acceptance, and in HUNT. On TXD a frame
under way is its characters in order, each a LOW start bit, its eight data bits with the least
significant first, and a HIGH stop bit, with nothing between them; IDLE, and until the character time
after a device reset has passed, TXD is HIGH (R179, R188, R193). -/
def Obligations.SentFrameIsReceivedWhole : Prop :=
  (∀ (f : Frame) (s : State), f.payload.length ≤ Config.maxPayload → s.rx.state = .hunt →
    (frameBytes f).foldl (fun s b => takeByte b s) s
      = sortFrame f.tag f.kind f.payload (s.withRx s.rx.hunting))
  ∧ (∀ (src : FrameSource) (f : Frame) (s : State), s.tx.state = .sending src f →
    txdLevels s = (frameBytes f).flatMap (fun b => Level.low :: ((List.range 8).map (fun i =>
      if b.toNat / 2 ^ i % 2 = 1 then Level.high else .low) ++ [.high])))
  ∧ (∀ s : State, (s.tx.state = .idle ∨ s.tx.state = .postReset) → txdLevels s = [.high])

/-- The values the reset tables of the chapters give (sections 1.7, 2.11, 3.7, 4.8, 5.6, 6.8, 7.9,
8.6, 9.9, 10.5), with READY for power-on in the Notice Queue. No command is under execution, no
channel owes a sample, no period has been a tick, nothing is handed over, offered or reported and no ending is set, which are the
model's own fields. The receiver waits for RXD to stand HIGH before its first character, as R193 has it
after a device reset; that power-on is no exception is read from R180 (notes/assumptions/14.md). The pins, the rate and the time reference, whose
values at reset are the model's, are not named. -/
def Obligations.ResetHoldsTheTablesValues : Prop :=
  State.reset.time = ⟨0, .stopped, .internal, 1, 0, false, .high, false⟩
  ∧ State.reset.table.records = [] ∧ (∀ i : Fin 64, State.reset.table.gens[i] = 1)
  ∧ (∀ n : Fin 8, State.reset.lines[n] = ⟨.direct, .low, .low, none⟩)
  ∧ (∀ n : Fin 8, State.reset.channels[n]
      = ⟨⟨.edge, .rising, 1, 0, true⟩, .off, 0, 0, .inStep⟩)
  ∧ State.reset.sampler.conv = .off ∧ State.reset.sampler.acquisition = 10
  ∧ State.reset.sampler.recoveryEnd = none
  ∧ (∀ i : Fin 4, State.reset.sampler.inputs[i] = ⟨0, 4095, true, none, 0⟩)
  ∧ (∀ k : Fin 16, State.reset.triggers.slots[k] = ⟨.empty, 0⟩)
  ∧ State.reset.triggers.claim = none
  ∧ State.reset.stamps.entries = [] ∧ (∀ n : Fin 8, State.reset.stamps.channelLoss[n] = 0)
  ∧ (∀ i : Fin 4, State.reset.stamps.inputLoss[i] = 0) ∧ State.reset.stamps.dropped = 0
  ∧ State.reset.stream = ⟨.off, 8, 10, 100, 5, [], 0, none, 1, 0⟩
  ∧ State.reset.notices = ⟨[⟨.ready .power, 0, none, none⟩], 0, 0⟩
  ∧ State.reset.cmd.queue = [] ∧ State.reset.cmd.progress = .notStarted
  ∧ State.reset.cmd.awaits = []
  ∧ (∀ i : Fin 16, State.reset.cmd.slots[i] = .free) ∧ State.reset.cmd.replyQueue = []
  ∧ State.reset.cmd.resetPending = none ∧ State.reset.cmd.accepted = 0
  ∧ State.reset.cmd.refused = 0 ∧ State.reset.cmd.refusalsLost = 0 ∧ State.reset.cmd.tagZero = 0
  ∧ State.reset.rx.state = .hunt ∧ State.reset.rx.gapExpiry = none
  ∧ State.reset.rx.lengthErrors = 0 ∧ State.reset.rx.gapErrors = 0
  ∧ State.reset.rx.checkErrors = 0 ∧ State.reset.rx.waitHigh = true
  ∧ State.reset.tx.state = .postReset ∧ State.reset.handed = ⟨[], [], []⟩ ∧ Quiet State.reset

/-- The laws that every step keeps hold at reset. -/
def Obligations.TheLawsHoldAtReset : Prop :=
  TableInOrder State.reset ∧ PulsesLegal State.reset ∧ ChannelsLegal State.reset
  ∧ SamplerLegal State.reset ∧ StreamLegal State.reset ∧ SlotsLegal State.reset
  ∧ TriggersLegal State.reset ∧ AwaitsLive State.reset ∧ ReceiverLegal State.reset
  ∧ HeldAtReset State.reset

/-! ## Every host command -/

/-- A host command whose payload has another length than its kind's is answered BAD_LENGTH before
anything else is looked at, the Trigger Table's claim in progress among it, and changes nothing (R164
step 1, R196); the step that takes it is the command's of that kind. -/
def Obligations.WrongLengthIsAnsweredBadLength : Prop :=
  ∀ (i : Extent → Instr) (k : Byte) (p : Payload) (c : QueuedCommand) (s : State),
    (∀ go, frameOf (i go) = some (k, p) ∧ extentOf (i go) = some go) → k ≠ kindAck → MayStart s →
    s.cmd.queue.head? = some c → c.kind = k → c.payload.length ≠ p.length →
    Replies i s c .badLength [] s

/-- A host command with a field outside its range is answered BAD_FIELD and changes nothing, in every
state of the blocks (R197 and the owning rules; wellFormed holds the ranges). -/
def Obligations.OutOfRangeFieldIsAnsweredBadField : Prop :=
  ∀ (i : Extent → Instr) (c : QueuedCommand) (s : State), Executes i c s → c.kind ≠ kindAck →
    (∀ go, wellFormed (i go) = false) → Replies i s c .badField [] s

/-- A step of a host command that the interpreter does not carry on now changes nothing: the model's
convention for a command that is not the oldest, or whose claim must wait for the Trigger Table
(notes/assumptions/4.md), and for a SET_TIME that would replace the value while a channel's sample is
due of a tick or taken ahead of a period, so that the sample's stamp is the value before or after its
tick as R68 says (notes/assumptions/13.md). -/
def Obligations.CommandOutOfTurnChangesNothing : Prop :=
  ∀ (i : Instr) (k : Byte) (p : Payload) (s : State), frameOf i = some (k, p) → k ≠ kindAck →
    (s.pins.resetActive = true ∨ interpreterBusy s = true ∨ s.cmd.queue = []
      ∨ (∃ c, s.cmd.queue.head? = some c ∧ (c.kind ≠ k
          ∨ c.payload.length = p.length ∧ c.payload ≠ p))
      ∨ (∃ c, s.cmd.queue.head? = some c ∧ c.payload.length = p.length ∧ k ∈ triggerKinds
          ∧ s.triggers.claim ≠ none ∧ ∀ r, s.cmd.progress ≠ .replying r)
      ∨ (∃ c v go, s.cmd.queue.head? = some c ∧ c.payload.length = p.length ∧ i = .setTime v go
          ∧ v.toNat ≠ Config.maxTime ∧ s.time.run = .stopped
          ∧ (∃ n : Fin 8, s.channels[n].sampling = .ahead
              ∨ s.channels[n].sampling = .due ∧ s.time.ticked = true)
          ∧ ∀ r, s.cmd.progress ≠ .replying r)) →
    exec i s = .next s

/-- HELLO and GET_TIME reply OK with what R170 and R12 list, in the layout of section 11.4, and change
nothing else. STATUS reads what R171 lists, block by block in that order, each block's as it stands
when it is read, in one claim on it (R123, R146, R187): a step of one claim makes the next reading,
and with the last one its reply is made; a step to the reply makes every reading that is left and
replies; that a step goes so far or so is the model's choice (notes/assumptions/6.md). A reply that a
command has made fills the slot of the oldest command, which leaves the queue, in one claim of the
command's next step, the removal reports that wait being taken before it (R164 step 3, R168). -/
def Obligations.HelloStatusAndGetTimeOnlyReply : Prop :=
  ∀ (c : QueuedCommand) (s : State),
    (Executes (.hello ·) c s → Replies (.hello ·) s c .ok
      [0x12, 0xC8, 1, 64, 8, 8, 4, 16, 128, 32, 4, 8, 16, 120, s.rate.setWidth 8] s)
    ∧ (Executes (.getTime ·) c s → Replies (.getTime ·) s c .ok
      (be 6 s.time.value ++ [s.time.run.code, s.time.source.code, BitVec.ofNat 8 s.time.prescaler,
        boolCode s.time.gating, levelCode s.time.polarity]) s)
    ∧ (s.pins.resetActive = false → interpreterBusy s = false → s.cmd.queue.head? = some c →
      c.kind = 0x02 → c.payload = [] → ∀ got : List Payload, got.length < 15 →
      (s.cmd.progress = .reading got ∨ s.cmd.progress = .notStarted ∧ got = []) →
      let stampQueue : Payload := [BitVec.ofNat 8 s.stamps.entries.length]
        ++ s.stamps.channelLoss.toList.flatMap (fun x => be 2 x.toNat)
        ++ s.stamps.inputLoss.toList.flatMap (fun x => be 2 x.toNat) ++ be 4 s.stamps.dropped.toNat
      let link : Payload := be 2 s.rx.lengthErrors.toNat ++ be 2 s.rx.gapErrors.toNat
        ++ be 2 s.rx.checkErrors.toNat
      let commands : Payload := be 4 s.cmd.accepted.toNat ++ be 2 s.cmd.refused.toNat
        ++ be 2 s.cmd.refusalsLost.toNat ++ be 2 s.cmd.tagZero.toNat
        ++ [BitVec.ofNat 8 s.cmd.queue.length, BitVec.ofNat 8 s.cmd.awaits.length]
      let readings : List Payload :=
        [s.time.run.code :: be 6 s.time.value, [BitVec.ofNat 8 s.table.records.length]]
        ++ s.channels.toList.map (fun x => be 4 x.events.toNat)
        ++ [stampQueue, s.stream.state.code :: be 2 s.stream.stale.toNat,
            be 2 s.notices.lost.toNat ++ be 4 s.notices.dropped.toNat, link, commands]
      let read := fun p : Progress => s.withCmd { s.cmd with progress := p }
      readings.length = 15 ∧ readings.flatten.length = 96
      ∧ (∃ t, exec (.status .toReply) s = .next t
          ∧ Answered c .ok (got ++ readings.drop got.length).flatten s t)
      ∧ (got.length < 14 → exec (.status .oneClaim) s = .next (settle
          (read (.reading (got ++ (readings.drop got.length).take 1)))))
      ∧ (got.length = 14 → exec (.status .oneClaim) s = .next (settle
          (read (.replying (replyTo c .ok (got ++ readings.drop 14).flatten))))))
    ∧ (∀ (i : Instr) (p : Payload) (r : Reply), s.pins.resetActive = false →
      interpreterBusy s = false → s.cmd.queue.head? = some c → s.cmd.progress = .replying r →
      frameOf i = some (c.kind, p) → c.kind ≠ kindAck →
      (p = c.payload ∨ p.length ≠ c.payload.length) →
      ∃ t, exec i s = .next t ∧ Filled c r (takeRemovals s) t)

/-- LIST_ACTIONS, LINE_STATUS, CHANNEL_STATUS, TRIGGER_STATUS and, while the stream is OFF, READ reply
OK with what R41, R60, R84, R117 and R130 list, and change nothing else; READ is refused STATE while
the stream is ON or STALLED. That CHANNEL_STATUS reads the channel and the Stamp Queue's pending
losses in one claim is the model's choice (notes/assumptions/6.md), and so is the notify flag that a
line state with no pulse running shows (notes/assumptions/22.md). -/
def Obligations.ListingCommandsOnlyReply : Prop :=
  ∀ (c : QueuedCommand) (s : State),
    (∀ p : Byte, Executes (.listActions p ·) c s → Replies (.listActions p ·) s c .ok
      ([BitVec.ofNat 8 s.table.records.length,
          BitVec.ofNat 8 (min 4 (s.table.records.length - p.toNat))]
        ++ ((s.table.records.drop p.toNat).take 4).flatMap actionRecordBytes) s)
    ∧ (Executes (.lineStatus ·) c s → Replies (.lineStatus ·) s c .ok
      (be 6 s.time.value ++ s.lines.toList.flatMap lineStateBytes) s)
    ∧ (∀ (b : Byte) (n : Fin 8), b.toNat = n.val → Executes (.channelStatus b ·) c s →
      Replies (.channelStatus b ·) s c .ok
        ([s.channels[n].config.mode.code, s.channels[n].config.edge.code,
          BitVec.ofNat 8 s.channels[n].config.divisor, BitVec.ofNat 8 s.channels[n].config.filter,
          boolCode s.channels[n].config.queue, s.channels[n].run.code,
          BitVec.ofNat 8 s.channels[n].edgeCount] ++ be 4 s.channels[n].events.toNat
          ++ be 2 s.stamps.channelLoss[n].toNat) s)
    ∧ (∀ (b : Byte) (k : Fin 16), b.toNat = k.val → Executes (.triggerStatus b ·) c s →
      Replies (.triggerStatus b ·) s c .ok
        (match s.triggers.slots[k].use with
          | .empty => [0, 0, 0] ++ be 2 s.triggers.slots[k].misses.toNat
          | .defined _ st left l =>
              [match st with | .armed => 1 | .paused => 2 | .spent => 3, BitVec.ofNat 8 left,
                BitVec.ofNat 8 l.length] ++ be 2 s.triggers.slots[k].misses.toNat) s)
    ∧ (∀ n : Byte, inRange (.read n ·) = true → Executes (.read n ·) c s →
      (s.stream.state ≠ .off → Replies (.read n ·) s c .state [] s)
      ∧ (s.stream.state = .off → Replies (.read n ·) s c .ok
        ([BitVec.ofNat 8 s.stamps.entries.length,
            BitVec.ofNat 8 (min n.toNat s.stamps.entries.length)]
          ++ (s.stamps.entries.take n.toNat).flatMap (fun e => stampBytes e.content)) s))

/-! ## The timebase -/

/-- CLOCK, STOP and GATE with fields in range. CLOCK is refused STATE in a run, and in STOPPED sets
source and prescaler with the prescaler count at 0; the channels go on counting the periods of the new
clock (R7), a sample taken ahead of the old one's next period being none of them, the model's choice
(notes/assumptions/13.md). STOP ends a run where the value stands, in any state replying OK (R11). GATE
sets gating and polarity and re-evaluates a run against the pin's present level (R6). Every other
field of the state is kept. -/
def Obligations.ClockStopAndGateSetTheTimebase : Prop :=
  ∀ (c : QueuedCommand) (s : State),
    (∀ source prescaler : Byte, inRange (.clock source prescaler ·) = true →
      Executes (.clock source prescaler ·) c s →
      (s.time.run ≠ .stopped → Replies (.clock source prescaler ·) s c .state [] s)
      ∧ (s.time.run = .stopped → ∃ channels : Vector Channel 8,
        (∀ n : Fin 8, channels[n] = { s.channels[n] with sampling :=
          if s.channels[n].sampling = .ahead then .inStep else s.channels[n].sampling })
        ∧ Replies (.clock source prescaler ·) s c .ok []
          ((s.withTime { s.time with source := if source = 0 then .internal else .refin
                                     prescaler := prescaler.toNat, count := 0 }).withChannels
            channels)))
    ∧ (Executes (.stop ·) c s → Replies (.stop ·) s c .ok [] (s.withTime { s.time with run := .stopped }))
    ∧ (∀ (gating polarity : Byte) (pin : Level), inRange (.gate gating polarity pin ·) = true →
      Executes (.gate gating polarity pin ·) c s →
      let level : Level := if polarity = 0 then .low else .high
      let run : RunState := if s.time.run = .stopped then .stopped
        else if gating = 0 ∨ pin = level then .running else .held
      Replies (.gate gating polarity pin ·) s c .ok [run.code]
        ((s.withPins { s.pins with gate := pin }).withTime
          { s.time with gating := (gating == 1), polarity := level, run := run }))

/-- SET_TIME with a value below 2^48 - 1: refused STATE in a run; in STOPPED the value is replaced and
each line whose running pulse ends at or before it ends that pulse, with no notice, every other line
being kept (R8, R56). That the value and the lines change in one claim is the model's choice
(notes/assumptions/6.md). The stamp of a sample is the value before the tick of its period or after it
(R68): that the value is replaced only with no sample due of a tick and none taken ahead, which is the
premise, and that until then the step changes nothing, is the model's form of that rule
(notes/assumptions/13.md). -/
def Obligations.SetTimeReplacesTheValueAndEndsPassedPulses : Prop :=
  ∀ (v : BitVec 48) (c : QueuedCommand) (s : State), inRange (.setTime v ·) = true →
    Executes (.setTime v ·) c s →
    (s.time.run ≠ .stopped → Replies (.setTime v ·) s c .state [] s)
    ∧ (s.time.run = .stopped → (∃ n : Fin 8, s.channels[n].sampling = .ahead
          ∨ s.channels[n].sampling = .due ∧ s.time.ticked = true) →
        ∀ go : Extent, exec (.setTime v go) s = .next s)
    ∧ (s.time.run = .stopped → (∀ n : Fin 8, s.channels[n].sampling ≠ .ahead
          ∧ (s.channels[n].sampling = .due → s.time.ticked = false)) →
        ∃ lines : Vector OutputLine 8, Replies (.setTime v ·) s c .ok []
          ((s.withTime { s.time with value := v.toNat }).withLines lines)
        ∧ ∀ n : Fin 8, lines[n] = match s.lines[n].pulse with
            | some p => if p.endTick ≤ v.toNat then
                { s.lines[n] with level := s.lines[n].idle, pulse := none } else s.lines[n]
            | none => s.lines[n])

/-- START: refused STATE in a run and RANGE with the value at the end of time; otherwise it enters
HELD with the gate closed and RUNNING else, makes the late walk, and replies the state entered; the
value and the prescaler count are kept (R9, R10). That no claim on the Action Table falls between the
change of run state and the walk is read from R10, R22 and R42 (notes/assumptions/6.md); that no claim
of another block falls between two removals of the walk is the model's choice
(notes/assumptions/18.md). -/
def Obligations.StartEntersARunAfterTheLateWalk : Prop :=
  ∀ (pin : Level) (c : QueuedCommand) (s : State), Executes (.start pin ·) c s →
    (s.time.run ≠ .stopped → Replies (.start pin ·) s c .state [] s)
    ∧ (s.time.run = .stopped → Config.maxTime ≤ s.time.value → Replies (.start pin ·) s c .range [] s)
    ∧ (s.time.run = .stopped → s.time.value < Config.maxTime →
        let run : RunState := if s.time.gating = true ∧ pin ≠ s.time.polarity then .held else .running
        Replies (.start pin ·) s c .ok [run.code]
          (lateWalk ((s.withPins { s.pins with gate := pin }).withTime { s.time with run := run })))

/-- The late walk at V works the records due at or before V in table order, one after another: a SKIP
record leaves SKIPPED at time V, as every removal does (`RemovalTellsEveryBlockThatHeldTheRecord`),
and a FIRE record takes its new place due V + 1 with its late flag set (R34, R37). Over a table whose
handles are distinct: every record left is due after V; one due after V is left as it was; a FIRE
record at or before V is due V + 1 with its late flag set and nothing else changed; a SKIP record at
or before V is gone, and its removal is reported to the await list in its turn (R168). Until the await
list takes the reports, the timebase, lines, channels, sampler, stamps, stream, command block,
receiver, transmitter, rate, pins and hand-overs are kept (R37). That the walk's removals stand together
with no claim of another block between them is the model's choice (notes/assumptions/18.md). -/
def Obligations.LateWalkSettlesEveryRecordDue : Prop :=
  (∀ s : State, lateWalk s = walkAll s.time.value
    (s.table.records.filter (fun r => r.due ≤ s.time.value)) s)
  ∧ (∀ (v : Time) (s : State), walkAll v [] s = s)
  ∧ (∀ (v : Time) (r : Record) (rs : List Record) (s : State), walkAll v (r :: rs) s
    = walkAll v rs (if r.body.late = .skip then removeRecord r .skipped v s
      else s.withTable { s.table with
        records := insertRecord { r with due := v + 1, lateFlag := true }
          (s.table.records.filter (fun x => x.handle ≠ r.handle)) }))
  ∧ ∀ s : State, s.table.records.Pairwise (fun a b => a.handle ≠ b.handle) →
    (∀ r ∈ (lateWalk s).table.records, s.time.value < r.due)
    ∧ (∀ r ∈ s.table.records, s.time.value < r.due → r ∈ (lateWalk s).table.records)
    ∧ (∀ r ∈ s.table.records, r.due ≤ s.time.value → r.body.late = .fire →
        { r with due := s.time.value + 1, lateFlag := true } ∈ (lateWalk s).table.records)
    ∧ (∀ r ∈ s.table.records, r.due ≤ s.time.value → r.body.late = .skip →
        ∀ x ∈ (lateWalk s).table.records, x.handle ≠ r.handle)
    ∧ (∀ x ∈ (lateWalk s).table.records, ∃ r ∈ s.table.records, x.handle = r.handle)
    ∧ (lateWalk s).time = s.time ∧ (lateWalk s).lines = s.lines
    ∧ (lateWalk s).channels = s.channels ∧ (lateWalk s).sampler = s.sampler
    ∧ (lateWalk s).stamps = s.stamps ∧ (lateWalk s).stream = s.stream ∧ (lateWalk s).rx = s.rx
    ∧ (lateWalk s).rate = s.rate ∧ (lateWalk s).pins = s.pins ∧ (lateWalk s).handed = s.handed
    ∧ (lateWalk s).cmd = s.cmd ∧ (lateWalk s).tx = s.tx
    ∧ (lateWalk s).removals = s.removals ++ (s.table.records.filter (fun r =>
        decide (r.due ≤ s.time.value) && decide (r.body.late = .skip))).map (fun r =>
          ⟨r.handle, .skipped⟩)

/-- Source periods and tick-clock periods that are not ticks. A source period that completes no
tick-clock period advances the prescaler count alone (R1). One that completes it returns the count to
0 and samples GATE; in STOPPED nothing else changes, and with the gate closed a run becomes or stays
HELD at its value (R5).
Each channel samples once a period (R68); that a channel which is not OFF and has not sampled ahead is
then to take its sample of the period, that these steps wait until every sample due of the last period
is taken, which is the premise, and that the period is noted as no tick, is the model's choice
(notes/assumptions/13.md). -/
def Obligations.PeriodsThatAreNotTicksKeepTheValue : Prop :=
  ∀ s : State, s.pins.resetActive = false → (∀ n : Fin 8, s.channels[n].sampling ≠ .due) →
    ∃ channels : Vector Channel 8,
      (∀ n : Fin 8, channels[n] = { s.channels[n] with sampling :=
        if s.channels[n].sampling = .ahead ∨ s.channels[n].run = .off then .inStep else .due })
      ∧ (s.time.count + 1 < s.time.prescaler →
        exec .sourcePeriod s = .next (settle (s.withTime { s.time with count := s.time.count + 1 })))
      ∧ (∀ (pin : Level) (taken : List TakenEvents), s.time.prescaler ≤ s.time.count + 1 →
        let u := (s.withPins { s.pins with gate := pin }).withChannels channels
        (s.time.run = .stopped → exec (.tickClockPeriod pin taken) s
          = .next (settle (u.withTime { s.time with count := 0, ticked := false })))
        ∧ (s.time.run ≠ .stopped → s.time.gating = true → pin ≠ s.time.polarity →
          exec (.tickClockPeriod pin taken) s
            = .next (settle (u.withTime
              { s.time with count := 0, run := .held, ticked := false }))))

/-- A tick-clock period with the gate open in a run is a tick to T, one above the value: each line ends a
pulse due at T, and then the records due at T fire in table order, the first of the list before the
rest of it; at T = 2^48 - 1 the timebase then stops and offers TIME_END (R3, R13, R30, R53).
Which source events the Trigger Table takes at each firing, those that the operand `taken` names and
none where none is written, and that no other block's claim falls inside the tick, is the model's
choice (notes/assumptions/18.md): R113 says that it may take an event at once.
Each channel samples once a period (R68); that one which is not OFF and has not sampled ahead is then
to take its sample of the period, that a tick waits until every sample due of the last period is taken,
which is the premise, and that the period is noted as a tick, is the model's choice
(notes/assumptions/13.md). -/
def Obligations.TickEndsPulsesThenFiresTheDueRecords : Prop :=
  (∀ (t : Time) (taken : List TakenEvents) (s : State), fireAll t [] taken s = s)
  ∧ (∀ (t : Time) (r : Record) (rs : List Record) (v : TakenEvents) (vs : List TakenEvents)
    (s : State), fireAll t (r :: rs) [] s = fireAll t rs [] (fireRecord ⟨[], []⟩ t r s)
      ∧ fireAll t (r :: rs) (v :: vs) s = fireAll t rs vs (fireRecord v t r s))
  ∧ ∀ (pin : Level) (taken : List TakenEvents) (s : State), s.pins.resetActive = false →
    (∀ n : Fin 8, s.channels[n].sampling ≠ .due) →
    s.time.prescaler ≤ s.time.count + 1 → s.time.run ≠ .stopped →
    (s.time.gating = true → pin = s.time.polarity) →
    ∃ (lines : Vector OutputLine 8) (channels : Vector Channel 8) (u : State),
      (∀ n : Fin 8, lines[n] = match s.lines[n].pulse with
        | some p => if p.endTick = s.time.value + 1 then
            { s.lines[n] with level := s.lines[n].idle, pulse := none } else s.lines[n]
        | none => s.lines[n])
      ∧ (∀ n : Fin 8, channels[n] = { s.channels[n] with sampling :=
        if s.channels[n].sampling = .ahead ∨ s.channels[n].run = .off then .inStep else .due })
      ∧ u = fireAll (s.time.value + 1)
          (s.table.records.filter (fun r => r.due = s.time.value + 1)) taken
          ((((s.withPins { s.pins with gate := pin }).withChannels channels).withTime
            { s.time with value := s.time.value + 1, count := 0, run := .running
                          ticked := true }).withLines lines)
      ∧ (s.time.value + 1 ≠ Config.maxTime →
          exec (.tickClockPeriod pin taken) s = .next (settle u))
      ∧ (s.time.value + 1 = Config.maxTime →
          exec (.tickClockPeriod pin taken) s = .next (settle (offerNotice .timeEnd Config.maxTime none
            (u.withTime { u.time with run := .stopped }))))

/-! ## Firing and leaving -/

/-- A firing effect on a line at tick T. On a DIRECT line it is suppressed and changes nothing (R49).
On a SCHEDULED line it is applied: a running pulse is truncated with a TRUNCATED notice exactly when
its notify flag is set (R52), and then SET, CLEAR and TOGGLE set the level and PULSE drives the
active level with an end tick of T + width (R50, R51). Every other line and block is kept: the state
is the one before, with that notice offered and that line replaced.
A SAMPLE firing at tick T: suppressed in OFF (R91); in IDLE applied, the converter entering
ACQUIRING with its input, fire tick, label and late flag until the acquisition time has passed
(R90); in any other state busy, with the named input's busy-miss count raised and kept at 65,535 and
the conversion as it was (R88, R91). -/
def Obligations.FiringOnALineOrTheSamplerIsAnswered : Prop :=
  (∀ (n : Fin 8) (e : LineEffect) (t : Time) (s : State),
    (s.lines[n].mode = .direct → lineEffect n e t s = (.suppressed, s))
    ∧ (s.lines[n].mode = .scheduled →
        let told := match s.lines[n].pulse with
          | some p => if p.notify then offerNotice (.truncated n) t p.label s else s
          | none => s
        let line : OutputLine := match e with
          | .set => { s.lines[n] with level := .high, pulse := none }
          | .clear => { s.lines[n] with level := .low, pulse := none }
          | .toggle => { s.lines[n] with level := s.lines[n].level.flip, pulse := none }
          | .pulse w label notify => { s.lines[n] with
              level := s.lines[n].idle.flip, pulse := some ⟨t + w, label, notify⟩ }
        lineEffect n e t s = (.applied, told.withLines (s.lines.set n line))))
  ∧ (∀ (i : Fin 4) (t : Time) (label : Option Label) (late : Bool) (s : State),
    (s.sampler.conv = .off → sampleFiring i t label late s = (.suppressed, s))
    ∧ (s.sampler.conv = .idle → sampleFiring i t label late s
        = (.applied, s.withSampler { s.sampler with
            conv := .acquiring ⟨i, t, label, late⟩ (s.now + s.sampler.acquisition) }))
    ∧ (s.sampler.conv.takenUp = true → ∃ x : AnalogInput,
        sampleFiring i t label late s
          = (.busy, s.withSampler { s.sampler with inputs := s.sampler.inputs.set i x })
        ∧ x = { s.sampler.inputs[i] with busyMiss := x.busyMiss }
        ∧ x.busyMiss.toNat = min 65535 (s.sampler.inputs[i].busyMiss.toNat + 1)))

/-- One firing at T, of a record of any kind. SET, CLEAR and TOGGLE hand that effect to their line,
PULSE its width, the record's label and a notify flag set unless the policy is NONE, SAMPLE the tick,
the label and the late flag to the sampler (R31, R46, R50, R51, R87); MARK has no target and is
applied. The status is SUPPRESSED or BUSY when the target answers so, and otherwise LATE or NORMAL by
the late flag. The ordinal goes up and the late flag is cleared. A label makes a NORMAL or LATE
firing a source event at T, and no other (R32). FIRED with that status is offered at every firing for
EACH, at every n-th ordinal for EVERY n, and never for NONE and LAST (R35). With the count used up or
no repeat the record leaves DONE; with a next due time past 2^48 - 1 it leaves RANGE; otherwise it is
re-timed to T + period (R33).
That the Trigger Table takes the source events `taken` names, some before the record leaves or is
re-timed and some after it, is the model's choice (notes/assumptions/18.md): R113 says that it may take
one at once. With none named nothing else happens, and what a taking does is
`SourceEventReachesTheMatchingSlots`' to say. -/
def Obligations.MarkFiringReportsAndRetimesOrLeaves : Prop :=
  ∀ (taken : TakenEvents) (t : Time) (r : Record) (s : State),
    let label := r.body.label
    let hit : Answer × State := match r.body.action with
      | .set n => lineEffect n .set t s
      | .clear n => lineEffect n .clear t s
      | .toggle n => lineEffect n .toggle t s
      | .pulse n w => lineEffect n (.pulse w label (decide (r.body.report ≠ .none))) t s
      | .sample i => sampleFiring i t label r.lateFlag s
      | .mark => (.applied, s)
    let st : FiringStatus := match hit.1 with
      | .suppressed => .suppressed
      | .busy => .busy
      | .applied => if r.lateFlag then .late else .normal
    let source : List SourceEvent := match label with
      | some l => if st = .normal ∨ st = .late then [⟨.label l, t⟩] else []
      | none => []
    let reported : Bool := match r.body.report with
      | .none | .last => false
      | .each => true
      | .every n => (r.ordinal + 1).toNat % n == 0
    let handed := hit.2.withHanded { hit.2.handed with events := hit.2.handed.events ++ source }
    let u := takeBlockEvents taken.before (if reported then
      offerNotice (.fired r.handle st (r.ordinal + 1)) t label handed else handed)
    let fired := { r with ordinal := r.ordinal + 1, lateFlag := false }
    ((r.remaining = 1 ∨ r.body.repeats = none) →
        fireRecord taken t r s = takeBlockEvents taken.after (removeRecord fired .done t u))
    ∧ (∀ rep, r.remaining ≠ 1 → r.body.repeats = some rep → Config.maxTime < t + rep.period →
        fireRecord taken t r s = takeBlockEvents taken.after (removeRecord fired .range t u))
    ∧ (∀ rep, r.remaining ≠ 1 → r.body.repeats = some rep → t + rep.period ≤ Config.maxTime →
        fireRecord taken t r s = takeBlockEvents taken.after (u.withTable { s.table with
          records := insertRecord
            { fired with due := t + rep.period, remaining := r.remaining - 1 }
            (s.table.records.filter (fun x => x.handle ≠ r.handle)) }))

/-- A record leaves the table: its slot is freed and its generation advances (255 followed by 1);
ENDED is offered exactly when its policy is not NONE; a trigger's list loses its handle, its misses
kept; its removal is reported to the await list; and no other block is touched (R20, R34, R36, R112).
The await list takes a report in a claim of its own: every await on the handle is answered OK with the
handle and the reason, in list order, the awaits and queued commands holding slots of their own, and
leaves the list; an answer tells the transmitter; the other reports wait on, a report that no entry
matches changes nothing else, and no other block is touched (R168, R189).
That a step leaves no report, and that an ending may take notices and a boundary before it, is the
model's choice (notes/assumptions/5.md). -/
def Obligations.RemovalTellsEveryBlockThatHeldTheRecord : Prop :=
  (∀ (r : Record) (e : EndReason) (t : Time) (s : State),
    let u := removeRecord r e t s
    u.table.records = s.table.records.filter (fun x => x.handle ≠ r.handle)
    ∧ u.table.gens[r.handle.slot] = (if s.table.gens[r.handle.slot] = 255 then 1
        else s.table.gens[r.handle.slot] + 1)
    ∧ (∀ i : Fin 64, i ≠ r.handle.slot → u.table.gens[i] = s.table.gens[i])
    ∧ u.table.nextStanding = s.table.nextStanding
    ∧ u.offered = (if r.body.report = .none then s.offered
        else s.offered ++ [⟨.ended r.handle e, t, r.body.label⟩])
    ∧ (∀ k : Fin 16, u.triggers.slots[k] = { s.triggers.slots[k] with
        use := match s.triggers.slots[k].use with
          | .empty => .empty
          | .defined d st n l => .defined d st n
              (if r.origin = .trigger k then l.filter (fun h => h ≠ r.handle) else l) })
    ∧ u.triggers.claim = s.triggers.claim
    ∧ u.removals = s.removals ++ [⟨r.handle, e⟩]
    ∧ u = (((s.withTable u.table).withOffered u.offered).withTriggers u.triggers).withRemovals
        u.removals)
  ∧ (∀ (h : Handle) (e : EndReason) (rest : List RemovalReport) (s : State),
    s.removals = ⟨h, e⟩ :: rest → (heldSlots s.cmd).Nodup →
    let u := takeEndClaim .removal s
    let answered := s.cmd.awaits.filter (fun a => a.handle = h)
    u.removals = rest
    ∧ u.cmd.awaits = s.cmd.awaits.filter (fun a => a.handle ≠ h)
    ∧ (∀ a ∈ s.cmd.awaits, a.handle = h → u.cmd.slots[a.slot]
        = .filled ⟨0x94, a.tag, [0, h.gen, BitVec.ofNat 8 h.slot.val, e.code]⟩)
    ∧ (∀ i : Fin 16, (∀ a ∈ s.cmd.awaits, a.handle = h → a.slot ≠ i) →
        u.cmd.slots[i] = s.cmd.slots[i])
    ∧ u.cmd = { s.cmd with slots := u.cmd.slots, awaits := u.cmd.awaits
                           replyQueue := s.cmd.replyQueue ++ answered.map AwaitEntry.slot }
    ∧ u.tx = { s.tx with told := s.tx.told || decide (answered ≠ []) }
    ∧ u = ((s.withCmd u.cmd).withTx u.tx).withRemovals u.removals)
  ∧ (∀ s : State, takeEndClaim .removals s = takeRemovals s
    ∧ (s.removals = [] → takeEndClaim .removal s = s ∧ takeRemovals s = s)
    ∧ (s.removals ≠ [] → takeRemovals s = takeRemovals (takeEndClaim .removal s)))

/-! ## The Action Table's commands -/

/-- SCHEDULE with fields in range, b being the record they ask for. The due time is the value given,
or the timebase value plus it; past 2^48 - 1 it is refused RANGE; with every slot live TABLE_FULL;
late in a run with SKIP, PAST; otherwise one record is admitted into the lowest free slot, due value
+ 1 with its late flag set when it was late, and the reply is its handle (R24 to R27). Only the
table changes. The record takes its place in table order: by due time, and by the order of admission
where due times are equal (R21), the number that holds that order being the model's own
(notes/assumptions/16.md). The fields ask for b exactly when each code is one of R197's and b
is what the codes name, a period of 0 being no repeat and a label of 0 no label (R23, R195, R197). -/
def Obligations.ScheduleAdmitsOneRecordOrRefuses : Prop :=
  (∀ (f : ScheduleFields) (b : Template) (c : QueuedCommand) (s : State),
    inRange (.schedule f ·) = true → readBody f.action = some b → Executes (.schedule f ·) c s →
    let due := if f.dueMode = 0 then f.dueValue.toNat else s.time.value + f.dueValue.toNat
    let late : Bool := decide (s.time.run ≠ .stopped ∧ due ≤ s.time.value)
    let full : Prop := ∀ k : Fin 64, ∃ r ∈ s.table.records, r.handle.slot = k
    (Config.maxTime < due → Replies (.schedule f ·) s c .range [] s)
    ∧ (due ≤ Config.maxTime → full → Replies (.schedule f ·) s c .tableFull [] s)
    ∧ (due ≤ Config.maxTime → ¬ full → late = true → f.action.late = 1 →
        Replies (.schedule f ·) s c .past [] s)
    ∧ (due ≤ Config.maxTime → ¬ full → (late = true → f.action.late = 0) →
        ∃ k : Fin 64, (∀ r ∈ s.table.records, r.handle.slot ≠ k)
          ∧ (∀ j : Fin 64, j < k → ∃ r ∈ s.table.records, r.handle.slot = j)
          ∧ Replies (.schedule f ·) s c .ok [s.table.gens[k], BitVec.ofNat 8 k.val]
            (s.withTable { s.table with
              records := insertRecord
                { handle := ⟨s.table.gens[k], k⟩, body := b
                  due := if late then s.time.value + 1 else due
                  remaining := (match b.repeats with | none => 1 | some rep => rep.count)
                  origin := .host, ordinal := 0, lateFlag := late
                  standing := s.table.nextStanding } s.table.records
              nextStanding := s.table.nextStanding + 1 })))
  ∧ (∀ (r : Record) (rs : List Record),
    let after := fun x : Record =>
      decide (r.due < x.due ∨ r.due = x.due ∧ r.standing < x.standing)
    insertRecord r rs = rs.takeWhile (fun x => !after x) ++ r :: rs.dropWhile (fun x => !after x))
  ∧ (∀ (f : TemplateFields) (b : Template), readBody f = some b ↔
    (match b.action with
      | .set n => f.kind = 0 ∧ f.target.toNat = n.val
      | .clear n => f.kind = 1 ∧ f.target.toNat = n.val
      | .toggle n => f.kind = 2 ∧ f.target.toNat = n.val
      | .pulse n w => f.kind = 3 ∧ f.target.toNat = n.val ∧ f.width.toNat = w ∧ w ≠ 0
      | .sample i => f.kind = 4 ∧ f.target.toNat = i.val
      | .mark => f.kind = 5)
    ∧ (match b.report with
      | .none => f.report = 0
      | .each => f.report = 1
      | .last => f.report = 2
      | .every n => f.report = 3 ∧ f.n.toNat = n ∧ 2 ≤ n ∧ n ≤ 16)
    ∧ f.late = (match b.late with | .fire => 0 | .skip => 1)
    ∧ b.repeats = (if f.period = 0 then none else some ⟨f.period.toNat, f.count.toNat⟩)
    ∧ b.label = (if f.label = 0 then none else some f.label))

/-- CANCEL of a handle that is not live is answered NO_SUCH and changes nothing; of a live one, the
record leaves CANCELLED at the present value (R39). CANCEL_LINE removes every record of kind SET,
CLEAR, TOGGLE or PULSE on the line, one after another in table order, and, with RELEASE, ends a
SCHEDULED line's running pulse; the reply counts the removals, and with distinct handles exactly
those records are gone (R40, R61). That the removals and the release are one claim for every block is the
model's choice (notes/assumptions/6.md and 18.md). -/
def Obligations.CancelAndCancelLineRemoveRecords : Prop :=
  (∀ (e : EndReason) (t : Time) (s : State), removeRecords e t [] s = s)
  ∧ (∀ (e : EndReason) (t : Time) (r : Record) (rs : List Record) (s : State),
    removeRecords e t (r :: rs) s = removeRecords e t rs (removeRecord r e t s))
  ∧ ∀ (c : QueuedCommand) (s : State),
    (∀ (gen slot : Byte) (h : Handle), gen ≠ 0 → h.gen = gen → slot.toNat = h.slot.val →
      Executes (.cancel gen slot ·) c s →
      ((∀ r ∈ s.table.records, r.handle ≠ h) → Replies (.cancel gen slot ·) s c .noSuch [] s)
      ∧ (∀ r, s.table.records.find? (fun r => r.handle = h) = some r →
          Replies (.cancel gen slot ·) s c .ok [] (removeRecord r .cancelled s.time.value s)))
    ∧ (∀ (line release : Byte) (n : Fin 8), line.toNat = n.val →
      inRange (.cancelLine line release ·) = true → Executes (.cancelLine line release ·) c s →
      let onLine := fun r : Record => match r.body.action with
        | .set m | .clear m | .toggle m | .pulse m _ => decide (m = n)
        | .sample _ | .mark => false
      let hits := s.table.records.filter onLine
      ∃ u : State, u = removeRecords .cancelled s.time.value hits s
        ∧ u.lines = s.lines
        ∧ (s.table.records.Pairwise (fun a b => a.handle ≠ b.handle) →
            u.table.records = s.table.records.filter (fun r => !onLine r))
        ∧ (release = 0 → Replies (.cancelLine line release ·) s c .ok
            [BitVec.ofNat 8 hits.length] u)
        ∧ (release = 1 → Replies (.cancelLine line release ·) s c .ok
            [BitVec.ofNat 8 hits.length]
            (u.withLines (s.lines.set n
              (if s.lines[n].mode = .scheduled ∧ s.lines[n].pulse.isSome then
                { s.lines[n] with level := s.lines[n].idle, pulse := none }
              else s.lines[n])))))

/-! ## The lines' commands -/

/-- LINE with fields in range: refused STATE for a change of idle level while a pulse runs; otherwise
mode and idle level are set, the current level is kept, and a change to DIRECT abandons the running
pulse without a notice; the reply gives mode, idle level and current level (R57, R58). Every other
line and block is kept. -/
def Obligations.LineSetsModeAndIdleLevel : Prop :=
  ∀ (line mode idle : Byte) (n : Fin 8) (c : QueuedCommand) (s : State), line.toNat = n.val →
    inRange (.line line mode idle ·) = true → Executes (.line line mode idle ·) c s →
    let i : Level := if idle = 0 then .low else .high
    (s.lines[n].pulse.isSome → i ≠ s.lines[n].idle → Replies (.line line mode idle ·) s c .state [] s)
    ∧ ((s.lines[n].pulse.isSome → i = s.lines[n].idle) →
        Replies (.line line mode idle ·) s c .ok [mode, idle, levelCode s.lines[n].level]
          (s.withLines (s.lines.set n
            { mode := if mode = 0 then .direct else .scheduled, idle := i
              level := s.lines[n].level
              pulse := if mode = 0 then none else s.lines[n].pulse })))

/-- DRIVE, whole (R59): a line above 7 or a level other than HIGH or LOW is refused BAD_FIELD; then a
SCHEDULED line refuses STATE; a refused DRIVE changes nothing. In DIRECT mode the current level
becomes the level given, the pin follows it, the idle level is kept, and the reply is OK. -/
def Obligations.DriveSetsADirectLinesLevel : Prop :=
  ∀ (line level : Byte) (c : QueuedCommand) (s : State), Executes (.drive line level ·) c s →
    ((7 < line.toNat ∨ 1 < level.toNat) → Replies (.drive line level ·) s c .badField [] s)
    ∧ (∀ n : Fin 8, line.toNat = n.val → level.toNat ≤ 1 →
        (s.lines[n].mode = .scheduled → Replies (.drive line level ·) s c .state [] s)
        ∧ (s.lines[n].mode = .direct →
            let v : Level := if level = 0 then .low else .high
            ∃ u : State, Replies (.drive line level ·) s c .ok [] u
              ∧ u = s.withLines (s.lines.set n { s.lines[n] with level := v })
              ∧ outPin n u = v ∧ u.lines[n].idle = s.lines[n].idle
              ∧ (s.lines[n].level = v → u = s)))

/-! ## The channels -/

/-- CHANNEL with fields in range, cfg being the configuration they give: refused STATE unless the
channel is OFF; otherwise the configuration is replaced, the event counter and edge count are 0, and
the channel enters OFF for mode OFF, ARMED at the pin's level for BOTH, and PRIMING otherwise (R72,
R81, R82). That with BOTH the level at execution stands, as R72 says, also where R85's row has the
settled level take the pin as the next samples find it, is the model's choice
(notes/assumptions/21.md). The channel's pending losses and every other channel and block are kept; a
sample taken ahead stands, the model's choice (notes/assumptions/13.md). The fields give cfg exactly when each
code is one of R197's that is valid for the mode, each number is in range, and cfg is what they name
(R81, R197). -/
def Obligations.ChannelConfiguresAnOffChannel : Prop :=
  (∀ (f : ChannelFields) (pin : Level) (n : Fin 8) (cfg : ChannelConfig) (c : QueuedCommand)
    (s : State), readChannel f = some (n, cfg) → Executes (.channel f pin ·) c s →
    (s.channels[n].run ≠ .off → Replies (.channel f pin ·) s c .state [] s)
    ∧ (s.channels[n].run = .off →
        let run : ChannelRun := if cfg.mode = .off then .off
          else if cfg.edge = .both then .armed pin none else .priming 0
        Replies (.channel f pin ·) s c .ok [run.code]
          ((s.withPins { s.pins with inputs := s.pins.inputs.set n pin }).withChannels
            (s.channels.set n ⟨cfg, run, 0, 0, s.channels[n].sampling⟩))))
  ∧ (∀ (f : ChannelFields) (n : Fin 8) (cfg : ChannelConfig), readChannel f = some (n, cfg) ↔
    f.channel.toNat = n.val
    ∧ f.mode = (match cfg.mode with | .off => 0 | .edge => 1 | .width => 2 | .period => 3)
    ∧ f.edge = (match cfg.edge with
      | .rising => 0 | .falling => 1 | .both => 2 | .high => 3 | .low => 4)
    ∧ (cfg.mode = .width ↔ cfg.edge = .high ∨ cfg.edge = .low)
    ∧ f.divisor.toNat = cfg.divisor ∧ 1 ≤ cfg.divisor ∧ (cfg.mode = .width → cfg.divisor = 1)
    ∧ f.filter.toNat = cfg.filter ∧ cfg.filter ≤ 15
    ∧ f.queue = (if cfg.queue then 1 else 0))

/-- CHANNEL_OFF, whole (R83): a channel above 7 is refused BAD_FIELD; otherwise the channel enters OFF
with its priming count, pending transition, reference and edge count discarded and its configuration
and event counter kept, a sample still due is no longer owed (R68), no event is offered, and the reply
is OK with the event counter; in OFF nothing changes. That a sample taken ahead stands is the model's
choice (notes/assumptions/13.md). -/
def Obligations.ChannelOffDiscardsTheWorkingState : Prop :=
  ∀ (b : Byte) (c : QueuedCommand) (s : State), Executes (.channelOff b ·) c s →
    (7 < b.toNat → Replies (.channelOff b ·) s c .badField [] s)
    ∧ (∀ n : Fin 8, b.toNat = n.val →
        ∃ u : State, Replies (.channelOff b ·) s c .ok (be 4 s.channels[n].events.toNat) u
          ∧ u = s.withChannels (s.channels.set n
              { s.channels[n] with run := .off, edgeCount := 0, sampling :=
                  if s.channels[n].sampling = .due then .inStep else s.channels[n].sampling })
          ∧ (s.channels[n].Legal → s.channels[n].run = .off → u = s))

/-- A channel in OFF does not sample, and one that does samples once in a tick-clock period (R68). A sample
that counts no transition: the priming count and arming of PRIMING, from the level the selected edge
departs from (R71), and in ARMED or MEASURING the three rows of the filter in which nothing counts
(R69). Only this channel's run state, the place of its samples and the recorded pin change.
Where a sample may be taken is the model's choice (notes/assumptions/13.md): the one due of the last
period, or, ahead of the timebase's claim, that of the period the next source period completes. So is
that a sample at any other place does not take place and changes nothing (notes/assumptions/4.md,
notes/assumptions/13.md). -/
def Obligations.SampleThatCountsNothingMovesTheFilterOnly : Prop :=
  (∀ (n : Fin 8) (pin : Level) (s : State), s.pins.resetActive = false →
    (s.channels[n].run = .off ∨ s.channels[n].sampling = .ahead
      ∨ s.channels[n].sampling = .inStep ∧ s.time.count + 1 < s.time.prescaler) →
    exec (.channelSample n pin) s = .next s)
  ∧ ∀ (n : Fin 8) (pin : Level) (place : Sampling) (s : State), s.pins.resetActive = false →
    let ch := s.channels[n]
    (ch.sampling = .due ∧ place = .inStep
      ∨ ch.sampling = .inStep ∧ s.time.prescaler ≤ s.time.count + 1 ∧ place = .ahead) →
    let goTo := fun run : ChannelRun =>
      settle ((s.withPins { s.pins with inputs := s.pins.inputs.set n pin }).withChannels
        (s.channels.set n { ch with run := run, sampling := place }))
    (∀ k before, ch.run = .priming k →
      (before = .low ∧ (ch.config.edge = .rising ∨ ch.config.edge = .high)
        ∨ before = .high ∧ (ch.config.edge = .falling ∨ ch.config.edge = .low)) →
      exec (.channelSample n pin) s = .next (goTo
        (if pin ≠ before then .priming 0
          else if k + 1 < ch.config.filter + 1 then .priming (k + 1)
          else .armed before none)))
    ∧ (∀ v, ch.run = .armed v none → pin = v →
        exec (.channelSample n pin) s = .next (goTo (.armed v none)))
    ∧ (∀ v, ch.run = .armed v none → pin ≠ v → ch.config.filter ≠ 0 →
        exec (.channelSample n pin) s = .next (goTo (.armed v (some ⟨pin, s.time.value, 0⟩))))
    ∧ (∀ v p, ch.run = .armed v (some p) → pin = p.level → p.held + 1 < ch.config.filter →
        exec (.channelSample n pin) s
          = .next (goTo (.armed v (some { p with held := p.held + 1 }))))
    ∧ (∀ v p, ch.run = .armed v (some p) → pin ≠ p.level →
        exec (.channelSample n pin) s = .next (goTo (.armed v none)))
    ∧ (∀ v r, ch.run = .measuring v none r → pin = v →
        exec (.channelSample n pin) s = .next (goTo (.measuring v none r)))
    ∧ (∀ v r, ch.run = .measuring v none r → pin ≠ v → ch.config.filter ≠ 0 →
        exec (.channelSample n pin) s = .next (goTo (.measuring v (some ⟨pin, s.time.value, 0⟩) r)))
    ∧ (∀ v p r, ch.run = .measuring v (some p) r → pin = p.level → p.held + 1 < ch.config.filter →
        exec (.channelSample n pin) s
          = .next (goTo (.measuring v (some { p with held := p.held + 1 }) r)))
    ∧ (∀ v p r, ch.run = .measuring v (some p) r → pin ≠ p.level →
        exec (.channelSample n pin) s = .next (goTo (.measuring v none r)))

/-- A sample whose transition counts, in ARMED or MEASURING, with level q and stamp t (the pending
transition's stamp when the filter is reached, or this sample's value with filter 0): the settled
level becomes q with no pending transition, and the transition is then taken as `takeTransition`
says, within this channel and the hand-overs alone (R69, R70).
Where the one sample of a period (R68) may be taken is the model's choice (notes/assumptions/13.md): the
one due of the last period, or that of the period the next source period completes. -/
def Obligations.SampleThatCountsTakesTheTransition : Prop :=
  ∀ (n : Fin 8) (pin : Level) (v : Level) (p : Option Pending) (place : Sampling) (s : State),
    s.pins.resetActive = false →
    let ch := s.channels[n]
    (ch.sampling = .due ∧ place = .inStep
      ∨ ch.sampling = .inStep ∧ s.time.prescaler ≤ s.time.count + 1 ∧ place = .ahead) →
    (ch.run = .armed v p ∨ ∃ r, ch.run = .measuring v p r) →
    (match p with
      | none => pin ≠ v ∧ ch.config.filter = 0
      | some x => pin = x.level ∧ ch.config.filter ≤ x.held + 1) →
    let stamp := match p with | none => s.time.value | some x => x.stamp
    let u := takeTransition n pin stamp
      ((s.withPins { s.pins with inputs := s.pins.inputs.set n pin }).withChannels
        (s.channels.set n { ch with
          run := match ch.run with
            | .measuring _ _ r => .measuring pin none r
            | _ => .armed pin none
          sampling := place }))
    exec (.channelSample n pin) s = .next (settle u)
    ∧ (∀ m : Fin 8, m ≠ n → u.channels[m] = s.channels[m])
    ∧ u.channels[n].sampling = place ∧ u.channels[n].config = ch.config
    ∧ u.handed.acks = s.handed.acks
    ∧ u = ((s.withPins { s.pins with inputs := s.pins.inputs.set n pin }).withChannels
        u.channels).withHanded u.handed

/-- The events of qualified transitions. RISING and FALLING select the edge of that direction and BOTH
either; a WIDTH pulse's leading edge is the rising one for HIGH and the falling one for LOW (R70). A
selected edge below the divisor raises the edge count alone; at the divisor the count returns to 0 and
the edge is an EDGE event, or in PERIOD the first sets the reference and each later one is a PERIOD
event whose stamp becomes the reference. In WIDTH a leading edge sets the reference, and a trailing
edge is a WIDTH event stamped with the reference. A value is the completing stamp less the reference;
past 4,294,967,295 it is that with OVER, and with the stamp below the reference 0 with OVER (R77). An
event raises the event counter, is handed to the Stamp Queue when the channel queues, and always to
the Trigger Table with its completing stamp (R73 to R80). -/
def Obligations.TransitionsFormTheModesEvents : Prop :=
  ∀ (n : Fin 8) (q : Level) (t : Time) (s : State),
    let ch := s.channels[n]
    let edge := match q with | .high => Polarity.rising | .low => Polarity.falling
    let set := fun x : Channel => s.withChannels (s.channels.set n x)
    let event := fun (x : Channel) (what : Measurement) (time : Time) =>
      (set { x with events := x.events + 1 }).withHanded
        { s.handed with
          offers := s.handed.offers ++ (if ch.config.queue then [⟨what, time⟩] else [])
          events := s.handed.events ++ [⟨.channel n, t⟩] }
    let selected : Prop := ch.config.edge = .both ∨ ch.config.edge = .rising ∧ q = .high
      ∨ ch.config.edge = .falling ∧ q = .low
    let leading : Prop := ch.config.edge = .high ∧ q = .high ∨ ch.config.edge = .low ∧ q = .low
    let value := fun r : Time => if t < r then (0 : BitVec 32) else
      if t - r ≤ 4294967295 then BitVec.ofNat 32 (t - r) else 4294967295
    let past := fun r : Time => decide (t < r ∨ 4294967295 < t - r)
    ((ch.config.mode = .edge ∨ ch.config.mode = .period) → ¬ selected →
        takeTransition n q t s = s)
    ∧ ((ch.config.mode = .edge ∨ ch.config.mode = .period) → selected →
        ch.edgeCount + 1 < ch.config.divisor →
        takeTransition n q t s = set { ch with edgeCount := ch.edgeCount + 1 })
    ∧ (ch.config.mode = .edge → selected → ch.config.divisor ≤ ch.edgeCount + 1 →
        takeTransition n q t s = event { ch with edgeCount := 0 } (.edge n edge) t)
    ∧ (∀ v p, ch.config.mode = .period → selected → ch.config.divisor ≤ ch.edgeCount + 1 →
        ch.run = .armed v p →
        takeTransition n q t s = set { ch with edgeCount := 0, run := .measuring v p t })
    ∧ (∀ v p r, ch.config.mode = .period → selected →
        ch.config.divisor ≤ ch.edgeCount + 1 → ch.run = .measuring v p r →
        takeTransition n q t s = event { ch with edgeCount := 0, run := .measuring v p t }
          (.period n (value r) (past r)) t)
    ∧ (∀ v p, ch.config.mode = .width → leading → ch.run = .armed v p →
        takeTransition n q t s = set { ch with run := .measuring v p t })
    ∧ (∀ v p r, ch.config.mode = .width → ¬ leading → ch.run = .measuring v p r →
        takeTransition n q t s = event { ch with run := .armed v p }
          (.width n (value r) (past r)) r)

/-! ## The sampler -/

/-- SAMPLER with fields in range. A new acquisition time is refused STATE while the converter is taken
up. Otherwise the time is set; OFF takes the converter to OFF, an abort setting the recovery end 3 µs
on; ON takes an OFF converter to RECOVERING while the recovery end is ahead and to IDLE else, and
leaves any other state; the reply is the state, the time and the four busy-miss counts (R95 to R97).
The inputs and every other block are kept. -/
def Obligations.SamplerSwitchesTheConverter : Prop :=
  ∀ (enable acquisition : Byte) (c : QueuedCommand) (s : State),
    inRange (.sampler enable acquisition ·) = true → Executes (.sampler enable acquisition ·) c s →
    (acquisition.toNat ≠ s.sampler.acquisition → s.sampler.conv.takenUp = true →
      Replies (.sampler enable acquisition ·) s c .state [] s)
    ∧ ((acquisition.toNat ≠ s.sampler.acquisition → s.sampler.conv.takenUp = false) →
      let conv : Converter := if enable = 0 then .off
        else if s.sampler.conv = .off then
          (if s.sampler.recoveryEnd.any (fun m => s.now < m) then .recovering else .idle)
        else s.sampler.conv
      let recovery : Option Moment := if enable = 0 ∧ s.sampler.conv.inProgress
        then some (s.now + 3) else s.sampler.recoveryEnd
      Replies (.sampler enable acquisition ·) s c .ok
        ([conv.code, acquisition]
          ++ s.sampler.inputs.toList.flatMap (fun x => be 2 x.busyMiss.toNat))
        (s.withSampler { s.sampler with conv := conv, acquisition := acquisition.toNat
                                        recoveryEnd := recovery }))

/-- WINDOW with fields in range sets the input's low, high and queue enable and makes its zone
UNKNOWN, in every converter state; the busy-miss count, the other inputs, the converter and every
other block are kept; the reply gives the window, queue enable, zone 0 and busy-miss count (R98). -/
def Obligations.WindowSetsOneInputAndForgetsItsZone : Prop :=
  ∀ (input : Byte) (low high : BitVec 16) (queue : Byte) (i : Fin 4) (c : QueuedCommand)
    (s : State), input.toNat = i.val → inRange (.window input low high queue ·) = true →
    Executes (.window input low high queue ·) c s →
    Replies (.window input low high queue ·) s c .ok
      (be 2 low.toNat ++ be 2 high.toNat ++ [queue, 0] ++ be 2 s.sampler.inputs[i].busyMiss.toNat)
      (s.withSampler { s.sampler with
        inputs := s.sampler.inputs.set i
          ⟨low.toNat, high.toNat, queue == 1, none, s.sampler.inputs[i].busyMiss⟩ })

/-- The stages of a conversion. The end of acquisition holds the input's level and enters CONVERTING
for 10 µs (R92). The end of conversion classes the result, enters IDLE, offers the stamp entry when
the input queues, makes the class the zone, and offers a zone entry exactly when the zone was known
and differs, both with the fire tick (R92 to R94). The recovery end takes RECOVERING to IDLE and
leaves any other state (R97).
That the reference moves to the moment is the model's reading (notes/assumptions/3.md). -/
def Obligations.ConversionStagesEndInAClassedResult : Prop :=
  ∀ s : State, s.pins.resetActive = false →
    (∀ ctx endAt level, s.sampler.conv = .acquiring ctx endAt →
      exec (.endOfAcquisition level) s = .next (settle (((s.withNow (max s.now endAt)).withPins
        { s.pins with analog := s.pins.analog.set ctx.input level }).withSampler
          { s.sampler with conv := .converting ctx level (max s.now endAt + 10) })))
    ∧ (∀ ctx held endAt, s.sampler.conv = .converting ctx held endAt →
      let x := s.sampler.inputs[ctx.input]
      let cls : ZoneClass := if held.toNat < x.low then .below
        else if x.high < held.toNat then .above else .inside
      exec .endOfConversion s = .next (settle (((s.withNow (max s.now endAt)).withSampler
        { s.sampler with conv := .idle
                         inputs := s.sampler.inputs.set ctx.input { x with zone := some cls } }).withHanded
          { s.handed with
            offers := s.handed.offers ++ (if x.queue then
              [⟨.sample ctx.input held cls ctx.late ctx.label, ctx.fireTick⟩] else [])
            events := s.handed.events ++ (if x.zone.isSome ∧ x.zone ≠ some cls then
              [⟨.zone ctx.input cls, ctx.fireTick⟩] else []) })))
    ∧ (∀ m, s.sampler.recoveryEnd = some m →
      exec .recoveryEnd s = .next (settle ((s.withNow (max s.now m)).withSampler { s.sampler with
        conv := if s.sampler.conv = .recovering then .idle else s.sampler.conv })))

/-! ## The Trigger Table -/

/-- TRIGGER with fields in range, d being the definition they give: refused STATE unless the slot is
EMPTY; otherwise the definition is stored, with its shots left, an empty list and no misses, ARMED
(R114). TRIGGER_ARM: NO_SUCH for an EMPTY slot; otherwise the target state, with the shots left kept,
and reloaded for a SPENT slot; list and misses are kept (R115). Only that slot changes. The fields
give d exactly when each code is one of R197's, each number is in range, and d is what they name; the
fields that the source kind does not read are ignored (R114, R196, R197). -/
def Obligations.TriggerDefinesAndArmMovesASlot : Prop :=
  (∀ (c : QueuedCommand) (s : State),
    (∀ (f : TriggerFields) (k : Fin 16) (d : TriggerDef), readTriggerDef f = some (k, d) →
      Executes (.trigger f ·) c s →
      (s.triggers.slots[k].use ≠ .empty → Replies (.trigger f ·) s c .state [] s)
      ∧ (s.triggers.slots[k].use = .empty → Replies (.trigger f ·) s c .ok
          [1, BitVec.ofNat 8 d.shots] (s.withTriggers { s.triggers with
            slots := s.triggers.slots.set k ⟨.defined d .armed d.shots [], 0⟩ })))
    ∧ (∀ (slot target : Byte) (k : Fin 16), slot.toNat = k.val →
      inRange (.triggerArm slot target ·) = true → Executes (.triggerArm slot target ·) c s →
      (s.triggers.slots[k].use = .empty → Replies (.triggerArm slot target ·) s c .noSuch [] s)
      ∧ (∀ d st left l, s.triggers.slots[k].use = .defined d st left l →
          let left' := if st = .spent then d.shots else left
          Replies (.triggerArm slot target ·) s c .ok [target, BitVec.ofNat 8 left']
            (s.withTriggers { s.triggers with
              slots := s.triggers.slots.set k
                ⟨.defined d (if target = 1 then .armed else .paused) left' l,
                  s.triggers.slots[k].misses⟩ }))))
  ∧ (∀ (f : TriggerFields) (k : Fin 16) (d : TriggerDef), readTriggerDef f = some (k, d) ↔
    f.slot.toNat = k.val
    ∧ (match d.source with
      | .channel n => f.sourceKind = 0 ∧ f.sourceNumber.toNat = n.val
      | .zone i z => f.sourceKind = 1 ∧ f.sourceNumber.toNat = i.val
          ∧ f.sourceZone = (match z with | .below => 1 | .inside => 2 | .above => 3)
      | .label l => f.sourceKind = 2 ∧ f.sourceLabel = l ∧ l ≠ 0)
    ∧ f.limit.toNat = d.limit ∧ 1 ≤ d.limit ∧ d.limit ≤ 8
    ∧ f.atLimit = (match d.atLimit with | .ignore => 0 | .replaceOldest => 1)
    ∧ f.shots.toNat = d.shots ∧ f.delay.toNat = d.delay ∧ d.delay ≠ 0
    ∧ readBody f.template = some d.template)

/-- TRIGGER_CLEAR: NO_SUCH for an EMPTY slot; otherwise the slot becomes EMPTY with its misses kept.
With KEEP, or with no instance, the reply is the number of handles (R116). With CANCEL and instances
the handles wait, each TRIGGER_CANCEL_REQUEST removes the next one's record CANCELLED or passes over
one no longer live, and after the last the claim ends with the reply made, which fills its slot in
that step or the next, as far as the step's extent says, the model's choice
(notes/assumptions/6.md; R39, R116, R164). -/
def Obligations.TriggerClearEmptiesTheSlotAndCancels : Prop :=
  ∀ (c : QueuedCommand) (s : State),
    (∀ (slot disposal : Byte) (k : Fin 16), slot.toNat = k.val →
      inRange (.triggerClear slot disposal ·) = true → Executes (.triggerClear slot disposal ·) c s →
      let emptied := s.triggers.slots.set k ⟨.empty, s.triggers.slots[k].misses⟩
      (s.triggers.slots[k].use = .empty → Replies (.triggerClear slot disposal ·) s c .noSuch [] s)
      ∧ (∀ d st left l, s.triggers.slots[k].use = .defined d st left l →
          ((disposal = 0 ∨ l = []) → Replies (.triggerClear slot disposal ·) s c .ok
              [BitVec.ofNat 8 l.length] (s.withTriggers { s.triggers with slots := emptied }))
          ∧ (disposal = 1 → l ≠ [] → ∀ go : Extent,
              exec (.triggerClear slot disposal go) s = .next (settle (s.withTriggers
                { slots := emptied, claim := some (.clearing l l.length) })))))
    ∧ (∀ (h : Handle) (rest : List Handle) (count : Nat),
      s.pins.resetActive = false → s.triggers.claim = some (.clearing (h :: rest) count) →
      let u := match s.table.records.find? (fun r => r.handle = h) with
        | some r => removeRecord r .cancelled s.time.value s
        | none => s
      (rest ≠ [] → ∀ go : Extent, exec (.triggerCancelRequest go) s = .next (settle
          (u.withTriggers { u.triggers with claim := some (.clearing rest count) })))
      ∧ (rest = [] → s.cmd.queue.head? = some c → Replies (.triggerCancelRequest ·) s c .ok
          [BitVec.ofNat 8 count] (u.withTriggers { u.triggers with claim := none })))

/-- TRIGGER_SOURCE_EVENT with no claim in progress takes the block's oldest event e and visits the
slots in ascending number. A slot that is ARMED and names e's source responds: below its limit it
hands over a plain request due source time + delay, and at its limit under REPLACE_OLDEST a request
naming its oldest instance, and the visit waits there; at its limit under IGNORE its misses go up by
one, kept at 65,535, and the visit goes on; any other slot is passed over; with no slot left the claim
ends (R104, R106 to R108). So if slot k is the lowest that responds its request is handed over and no
slot's state, list or misses change; if none responds the event is gone and nothing else changes
(R104, R105). If k is the only such slot and is at its limit under IGNORE, its misses alone go up
(R107).
That within a tick the Trigger Table takes the oldest events of the blocks which an operand names, one
after another in the same way, passing over those that find a claim in progress or no event waiting, is
the model's choice (notes/assumptions/18.md). -/
def Obligations.SourceEventReachesTheMatchingSlots : Prop :=
  (∀ (e : SourceEvent) (s : State),
    visitSlots e [] s = s.withTriggers { s.triggers with claim := none })
  ∧ (∀ (e : SourceEvent) (k : Fin 16) (ks : List (Fin 16)) (s : State),
    ((¬ ∃ d n l, s.triggers.slots[k].use = .defined d .armed n l ∧ d.source = e.source) →
      visitSlots e (k :: ks) s = visitSlots e ks s)
    ∧ (∀ d n l, s.triggers.slots[k].use = .defined d .armed n l → d.source = e.source →
      (l.length < d.limit → visitSlots e (k :: ks) s = s.withTriggers { s.triggers with
          claim := some (.event e ⟨k, d.template, e.time + d.delay, none⟩) })
      ∧ (d.limit ≤ l.length → d.atLimit = .replaceOldest →
          visitSlots e (k :: ks) s = s.withTriggers { s.triggers with
            claim := some (.event e ⟨k, d.template, e.time + d.delay, l.head?⟩) })
      ∧ (d.limit ≤ l.length → d.atLimit = .ignore → ∃ m : BitVec 16,
          m.toNat = min 65535 (s.triggers.slots[k].misses.toNat + 1)
          ∧ visitSlots e (k :: ks) s = visitSlots e ks (s.withTriggers { s.triggers with
              slots := s.triggers.slots.set k { s.triggers.slots[k] with misses := m } }))))
  ∧ (∀ s : State, takeBlockEvents [] s = s)
  ∧ (∀ (b : EventBlock) (bs : List EventBlock) (s : State), takeBlockEvents (b :: bs) s
    = takeBlockEvents bs (if s.triggers.claim.isSome then s else
      match s.handed.events.find? (fun x => decide (x.source.block = b)) with
      | none => s
      | some e => visitSlots e (List.finRange 16)
          (s.withHanded { s.handed with events := s.handed.events.erase e })))
  ∧ (∀ (n : Fin 8) (i : Fin 4) (z : ZoneClass) (l : Label),
    (EventSource.channel n).block = .channel n ∧ (EventSource.zone i z).block = .sampler
      ∧ (EventSource.label l).block = .actionTable)
  ∧ ∀ (b : EventBlock) (e : SourceEvent) (s : State), s.pins.resetActive = false →
    s.triggers.claim = none →
    s.handed.events.find? (fun x => decide (x.source.block = b)) = some e →
    let responds := fun j : Fin 16 => ∃ d n l,
      s.triggers.slots[j].use = .defined d .armed n l ∧ d.source = e.source
    let rest := { s.handed with events := s.handed.events.erase e }
    let ends := fun u : State => exec (.triggerSourceEvent b) s = .next (settle u)
    ends (visitSlots e (List.finRange 16) (s.withHanded rest))
    ∧ ((∀ j, ¬ responds j) → ends (s.withHanded rest))
    ∧ (∀ (k : Fin 16) d n l, s.triggers.slots[k].use = .defined d .armed n l →
        d.source = e.source → (∀ j, j < k → ¬ responds j) →
        (l.length < d.limit → ends ((s.withHanded rest).withTriggers
          { s.triggers with claim := some (.event e ⟨k, d.template, e.time + d.delay, none⟩) }))
        ∧ (d.limit ≤ l.length → d.atLimit = .replaceOldest →
            ends ((s.withHanded rest).withTriggers
              { s.triggers with
                claim := some (.event e ⟨k, d.template, e.time + d.delay, l.head?⟩) }))
        ∧ (d.limit ≤ l.length → d.atLimit = .ignore → (∀ j, k < j → ¬ responds j) →
            ∃ m : BitVec 16, m.toNat = min 65535 (s.triggers.slots[k].misses.toNat + 1)
              ∧ ends ((s.withHanded rest).withTriggers
                { s.triggers with
                  slots := s.triggers.slots.set k
                    { s.triggers.slots[k] with misses := m } })))

/-- TRIGGER_ADMISSION_REQUEST and REPLACEMENT_ADMISSION: the Action Table answers the request
(`TableAnswersPlainAndReplacementRequests`), the slot takes the answer, and the visit goes on with the
slots of higher number (R28, R29, R104), in the same step, the model's choice
(notes/assumptions/20.md), and so is it that no claim of another block falls within a replacement
(notes/assumptions/18.md). What a slot makes of an answer. A handle: a replaced handle
leaves the list, the new one joins its end, and when shots are counted one is used, SPENT following
the last (R109). A refusal is a miss, counted and kept at 65,535; TABLE_FULL and PAST offer
TRIGGER_MISS with the value and the template's label, RANGE offers none; shots, list and every other
slot are kept (R110, R111). -/
def Obligations.TriggerRequestsAreAnsweredAndTheAnswersTaken : Prop :=
  (∀ (e : SourceEvent) (k : Fin 16) (s : State),
    continueVisit e k s = visitSlots e ((List.finRange 16).drop (k.val + 1)) s)
  ∧ (∀ (e : SourceEvent) (r : AdmissionRequest) (s : State), s.pins.resetActive = false →
    s.triggers.claim = some (.event e r) →
    (r.replaces = none → exec .triggerAdmissionRequest s = .next (settle (continueVisit e r.slot
      (takeAnswer r (plainAdmission r.template r.due (.trigger r.slot) s).1
        (plainAdmission r.template r.due (.trigger r.slot) s).2))))
    ∧ (∀ h, r.replaces = some h → exec .replacementAdmission s = .next (settle (continueVisit e r.slot
        (takeAnswer r (replaceAdmission h r.template r.due (.trigger r.slot) s).1
          (replaceAdmission h r.template r.due (.trigger r.slot) s).2)))))
  ∧ (∀ (r : AdmissionRequest) (d : TriggerDef) (st : ArmState) (left : Nat) (l : List Handle)
    (s : State), s.triggers.slots[r.slot].use = .defined d st left l →
    let x := s.triggers.slots[r.slot]
    let missed := fun m : BitVec 16 => s.withTriggers { s.triggers with
      slots := s.triggers.slots.set r.slot { x with misses := m } }
    (∀ h, takeAnswer r (.handle h) s = s.withTriggers { s.triggers with
        slots := s.triggers.slots.set r.slot { x with
          use := .defined d
            (if d.shots ≠ 0 ∧ left ≤ 1 then .spent else st)
            (if d.shots = 0 then left else left - 1)
            (l.filter (fun y => r.replaces ≠ some y) ++ [h]) } })
    ∧ ∃ m : BitVec 16, m.toNat = min 65535 (x.misses.toNat + 1)
      ∧ takeAnswer r .range s = missed m
      ∧ takeAnswer r .tableFull s = offerNotice (.triggerMiss r.slot .tableFull) s.time.value
          r.template.label (missed m)
      ∧ takeAnswer r .past s = offerNotice (.triggerMiss r.slot .past) s.time.value
          r.template.label (missed m))

/-- The Action Table's answers to a trigger's request. A plain one: RANGE past 2^48 - 1, TABLE_FULL
with every slot live, PAST for a late SKIP in a run, each leaving the table as it was; otherwise the
handle of a record admitted in the lowest free slot with this origin (R28). A replacement of a live
instance: RANGE and PAST in the same cases, the instance staying; otherwise the instance leaves
CANCELLED and the new record takes its slot; of one no longer live, a plain admission (R29). That no
claim of another block falls within a replacement is the model's choice (notes/assumptions/18.md), and
the number that holds the order of admission is the model's own (notes/assumptions/16.md). -/
def Obligations.TableAnswersPlainAndReplacementRequests : Prop :=
  ∀ (b : Template) (due : Time) (o : Origin) (s : State),
    let late : Bool := decide (s.time.run ≠ .stopped ∧ due ≤ s.time.value)
    let full : Prop := ∀ k : Fin 64, ∃ r ∈ s.table.records, r.handle.slot = k
    let admitted := fun (k : Fin 64) (u : State) => u.withTable { u.table with
      records := insertRecord
        { handle := ⟨u.table.gens[k], k⟩, body := b, due := if late then s.time.value + 1 else due
          remaining := (match b.repeats with | none => 1 | some rep => rep.count), origin := o
          ordinal := 0, lateFlag := late, standing := u.table.nextStanding } u.table.records
      nextStanding := u.table.nextStanding + 1 }
    (Config.maxTime < due → plainAdmission b due o s = (.range, s))
    ∧ (due ≤ Config.maxTime → full → plainAdmission b due o s = (.tableFull, s))
    ∧ (due ≤ Config.maxTime → ¬ full → late = true → b.late = .skip →
        plainAdmission b due o s = (.past, s))
    ∧ (due ≤ Config.maxTime → ¬ full → (late = true → b.late = .fire) →
        ∃ k : Fin 64, (∀ r ∈ s.table.records, r.handle.slot ≠ k)
          ∧ (∀ j : Fin 64, j < k → ∃ r ∈ s.table.records, r.handle.slot = j)
          ∧ plainAdmission b due o s = (.handle ⟨s.table.gens[k], k⟩, admitted k s))
    ∧ (∀ old, s.table.records.find? (fun r => r.handle = old) = none →
        replaceAdmission old b due o s = plainAdmission b due o s)
    ∧ (∀ old r, s.table.records.find? (fun r => r.handle = old) = some r →
        let u := removeRecord r .cancelled s.time.value s
        (Config.maxTime < due → replaceAdmission old b due o s = (.range, s))
        ∧ (due ≤ Config.maxTime → late = true → b.late = .skip →
            replaceAdmission old b due o s = (.past, s))
        ∧ (due ≤ Config.maxTime → (late = true → b.late = .fire) →
            replaceAdmission old b due o s
              = (.handle ⟨nextGeneration s.table.gens[old.slot], old.slot⟩, admitted old.slot u)))

/-! ## The Stamp Queue and the report stream -/

/-- STREAM with fields in range: refused STATE for a new configuration while ON or STALLED; otherwise
the configuration is set and the enable taken: OFF to ON with an empty window, retry count 0 and the
timer stopped; ON to OFF by a reversion, every entry WAITING in place and the next sequence number
kept; STALLED to ON or OFF; the rest unchanged. Entering ON tells the transmitter exactly when a report
is then eligible (R132). The reply is the state, the configuration and the queue count (R127 to R129,
R134). -/
def Obligations.StreamSetsConfigurationAndState : Prop :=
  ∀ (f : StreamFields) (c : QueuedCommand) (s : State), inRange (.stream f ·) = true →
    Executes (.stream f ·) c s →
    let same := f.batch.toNat = s.stream.batch ∧ f.hold.toNat = s.stream.hold
      ∧ f.interval.toNat = s.stream.interval ∧ f.retryLimit.toNat = s.stream.retryLimit
    (s.stream.state ≠ .off → ¬ same → Replies (.stream f ·) s c .state [] s)
    ∧ ((s.stream.state ≠ .off → same) →
        let st := { s.stream with batch := f.batch.toNat, hold := f.hold.toNat
                                  interval := f.interval.toNat, retryLimit := f.retryLimit.toNat }
        let wanted : StreamState := if f.enable = 1 then .on else .off
        let stream : ReportStream := match s.stream.state, wanted with
          | .off, .on => { st with state := .on, window := [], retryCount := 0, timer := none }
          | .on, .off => { st with state := .off, window := [], retryCount := 0, timer := none }
          | .stalled, .on => { st with state := .on, retryCount := 0 }
          | _, _ => { st with state := wanted }
        let entries := if s.stream.state = .on ∧ wanted = .off
          then s.stamps.entries.map (fun e => { e with state := .waiting }) else s.stamps.entries
        let u := (s.withStream stream).withStamps { s.stamps with entries := entries }
        let tells : Bool := decide (s.stream.state ≠ .on ∧ wanted = .on) && eligible u
        Replies (.stream f ·) s c .ok
          ([wanted.code, f.batch, f.hold] ++ be 2 f.interval.toNat
            ++ [f.retryLimit, BitVec.ofNat 8 s.stamps.entries.length])
          (u.withTx { s.tx with told := s.tx.told || tells }))

/-- RELEASE, whole (R131): refused STATE while the stream is ON or STALLED; otherwise refused
BAD_FIELD for more entries than stand, none leaving; otherwise the n oldest leave, the pending losses
being kept, and the reply is OK with the count after the removal. -/
def Obligations.ReleaseRemovesTheOldestEntries : Prop :=
  ∀ (n : Byte) (c : QueuedCommand) (s : State), Executes (.release n ·) c s →
    (s.stream.state ≠ .off → Replies (.release n ·) s c .state [] s)
    ∧ (s.stream.state = .off → s.stamps.entries.length < n.toNat →
        Replies (.release n ·) s c .badField [] s)
    ∧ (s.stream.state = .off → n.toNat ≤ s.stamps.entries.length →
        ∃ u : State, u = s.withStamps { s.stamps with entries := s.stamps.entries.drop n.toNat }
          ∧ Replies (.release n ·) s c .ok
              [BitVec.ofNat 8 (s.stamps.entries.length - n.toNat)] u
          ∧ (n = 0 → u = s))

/-- A good ACK names a report of the window: it and the reports before it leave the window, with their
marks, and their entries leave the queue; the reports behind it and every other entry stay; the retry
count is 0; and the timer is restarted one interval from now, or stopped with an empty window. The
transmitter is told exactly when a report is eligible after it (R132). Losses, numbering, the stale
counter and every other block are kept (R140). -/
def Obligations.GoodAckRemovesTheReportsUpToIt : Prop :=
  ∀ (q : Byte) (acks : List Payload) (before after : List Report) (r : Report) (s : State),
    s.pins.resetActive = false → s.handed.acks = [q] :: acks → s.stream.state = .on →
    s.stream.window = before ++ r :: after → r.sequence = q → (∀ x ∈ before, x.sequence ≠ q) →
    let u := ((s.withHanded { s.handed with acks := acks }).withStream { s.stream with
        window := after, retryCount := 0
        timer := if after = [] then none else some (s.now + s.stream.interval * 1000) }).withStamps
      { s.stamps with entries := s.stamps.entries.filter (fun e =>
          !(before ++ [r]).any (fun x => decide (e.state = .inFlight x.sequence))) }
    exec (.ack q) s = .next (settle (u.withTx { s.tx with told := s.tx.told || eligible u }))

/-- A stale ACK, whole (R141): the oldest ACK handed over, whose payload is not one byte, or names no
report of the window, or finds the stream OFF or STALLED, raises the stale counter by one, kept at
65,535, and changes nothing else: it tells no one, and with nothing left over from an earlier step the
next state is the state before with that ACK taken and that counter. -/
def Obligations.StaleAckRaisesTheCounterAlone : Prop :=
  ∀ (q : Byte) (p : Payload) (acks : List Payload) (s : State), s.pins.resetActive = false →
    s.handed.acks = p :: acks →
    (p.length ≠ 1 ∨ p = [q] ∧ (s.stream.state ≠ .on ∨ ∀ r ∈ s.stream.window, r.sequence ≠ q)) →
    ∃ m : BitVec 16, m.toNat = min 65535 (s.stream.stale.toNat + 1)
      ∧ (let u := (s.withHanded { s.handed with acks := acks }).withStream
           { s.stream with stale := m }
         exec (.ack q) s = .next (settle u)
           ∧ (Quiet s → exec (.ack q) s = .next u))

/-- The Stamp Queue takes the oldest offer o of a block (R122, R124, R125). Below 128 entries it is
appended WAITING with this moment as its admission, carrying its source's pending losses as
lost-before when they are not 0, and that source's count returns to 0; the transmitter is told exactly
when a report is then eligible (R132). At 128 it is dropped: its source's count and the dropped total
each go up by one, kept at their largest, the entries are kept and no one is told. Other sources'
counts are kept. -/
def Obligations.OfferIsAdmittedOrDroppedAndCounted : Prop :=
  ∀ (b : StampBlock) (o : StampOffer) (s : State), s.pins.resetActive = false →
    s.handed.offers.find? (fun x => decide (b = match x.what with
      | .edge n _ | .width n _ _ | .period n _ _ => .channel n
      | .sample _ _ _ _ _ => .sampler)) = some o →
    let lost : BitVec 16 := match o.what with
      | .edge n _ | .width n _ _ | .period n _ _ => s.stamps.channelLoss[n]
      | .sample i _ _ _ _ => s.stamps.inputLoss[i]
    let withLost := fun (x : BitVec 16) (q : StampQueue) => match o.what with
      | .edge n _ | .width n _ _ | .period n _ _ =>
          { q with channelLoss := q.channelLoss.set n x }
      | .sample i _ _ _ _ => { q with inputLoss := q.inputLoss.set i x }
    let taken := s.withHanded { s.handed with offers := s.handed.offers.erase o }
    (s.stamps.entries.length < 128 →
      let u := taken.withStamps (withLost 0 { s.stamps with entries := s.stamps.entries ++
        [⟨.waiting, ⟨o.what, o.time, if lost = 0 then none else some lost⟩, s.now⟩] })
      exec (.stampOffer b) s = .next (settle (u.withTx { s.tx with
        told := s.tx.told || eligible u })))
    ∧ (128 ≤ s.stamps.entries.length → ∃ (m : BitVec 16) (n : BitVec 32),
        m.toNat = min 65535 (lost.toNat + 1)
        ∧ n.toNat = min 4294967295 (s.stamps.dropped.toNat + 1)
        ∧ exec (.stampOffer b) s = .next (settle (taken.withStamps
            (withLost m { s.stamps with dropped := n }))))

/-- The hold time reached, with the stream ON and the window below four reports: the reference stands
at or past the oldest WAITING entry's admission plus the hold, and the transmitter is told when a
report is eligible; with no notice offered, no removal reported, no reply or notice waiting and no
mark, an idle one forms the next report and begins it: the oldest WAITING entries up to the batch,
IN_FLIGHT under the next number, which advances (R132 to R134, R189).
That the reference moves to the moment is the model's reading (notes/assumptions/3.md), and that the
boundary is a claim of the step's usual ending its choice (notes/assumptions/5.md). -/
def Obligations.HoldReachedFormsAndSendsAReport : Prop :=
  (∀ (q : Byte) (es : List StampEntry), markInFlight q 0 es = es)
  ∧ (∀ (q : Byte) (n : Nat), markInFlight q n [] = [])
  ∧ (∀ (q : Byte) (n : Nat) (e : StampEntry) (es : List StampEntry), markInFlight q (n + 1) (e :: es)
    = if e.state = .waiting then { e with state := .inFlight q } :: markInFlight q n es
      else e :: markInFlight q (n + 1) es)
  ∧ ∀ (e : StampEntry) (rest : List StampEntry) (s : State), s.pins.resetActive = false →
    s.stream.state = .on → s.stream.window.length < 4 →
    s.stamps.entries.filter (fun x => decide (x.state = .waiting)) = e :: rest →
    (let u := s.withNow (max s.now (e.since + s.stream.hold * 1000))
     exec .holdTimeReached s = .next (settle (u.withTx { s.tx with
       told := s.tx.told || eligible u })))
    ∧ (s.offered = [] → s.removals = [] → s.endings = [] → s.tx.state = .idle →
        s.cmd.replyQueue = [] → s.cmd.resetPending = none → s.notices.queue = [] →
        (∀ r ∈ s.stream.window, r.marked = false) →
        let report : Report := ⟨s.stream.nextSequence,
          ((e :: rest).take s.stream.batch).map StampEntry.content, false⟩
        ∃ t, exec .holdTimeReached s = .next t
          ∧ t.stream = { s.stream with
              window := s.stream.window ++ [report]
              nextSequence := if s.stream.nextSequence = 255 then 1 else s.stream.nextSequence + 1 }
          ∧ t.stamps.entries = markInFlight s.stream.nextSequence s.stream.batch s.stamps.entries
          ∧ t.tx.state = .sending (.firstSending s.stream.nextSequence)
              ⟨0, 0xF1, reportPayload report.sequence report.contents⟩
          ∧ t.cmd = s.cmd ∧ t.notices = s.notices ∧ t.table = s.table ∧ t.lines = s.lines)

/-- The retransmit timer's expiry. Below the retry limit the timer stops, every report of the window
is marked, which tells the transmitter (R189), and the retry count goes up, nothing else of the stream
or the queue changing (R137). At the limit the stream enters STALLED by a reversion, the next number
and stale counter kept, and offers STREAM_STALLED with the present value (R128, R139).
That the reference moves to the moment is the model's reading (notes/assumptions/3.md). -/
def Obligations.ExpiryMarksTheWindowOrStalls : Prop :=
  ∀ (m : Moment) (s : State), s.pins.resetActive = false → s.stream.timer = some m →
    (s.stream.retryCount < s.stream.retryLimit →
      exec .retransmitExpiry s = .next (settle (((s.withNow (max s.now m)).withStream
          { s.stream with timer := none, retryCount := s.stream.retryCount + 1
                          window := s.stream.window.map (fun r => { r with marked := true }) }).withTx
          { s.tx with told := s.tx.told || decide (s.stream.window ≠ []) })))
    ∧ (s.stream.retryLimit ≤ s.stream.retryCount →
      exec .retransmitExpiry s = .next (settle (offerNotice .streamStalled s.time.value none
        (((s.withNow (max s.now m)).withStamps { s.stamps with
            entries := s.stamps.entries.map (fun e => { e with state := .waiting }) }).withStream
          { s.stream with state := .stalled, window := [], timer := none, retryCount := 0 }))))

/-- A notice offered waits behind the offers made before it, and nothing else changes. The Notice Queue
takes it in a claim of its own (R146): below 32 records it is appended, with the lost count as its
lost-before when that is not 0, and the lost count returns to 0 (R147, R148); at 32 it is dropped: the
records are kept, and the lost count and the dropped total each go up by one, kept at their largest
(R147). No other block but the transmitter, which an admission tells, is touched (R189). At the end of
a step the offers that wait are taken in the order made; or the oldest of one block is, unless an
offer made before it in the same tick still waits, so that offers of one block and the notices of one
tick keep their order and other offers may be taken in any (R13, R146, R151, R155): that an ending
names its claims so, that each line is a block of its own, and that the notices of two ticks of one
value, a SET_TIME back or a reset between them, count as one tick's, are the model's choices
(notes/assumptions/19.md). -/
def Obligations.NoticeIsAdmittedOrDroppedAndCounted : Prop :=
  (∀ (b : NoticeBody) (t : Time) (l : Option Label) (s : State),
    offerNotice b t l s = s.withOffered (s.offered ++ [⟨b, t, l⟩])
    ∧ (s.notices.queue.length < 32 → admitNotice ⟨b, t, l⟩ s = (s.withNotices
      { queue := s.notices.queue
          ++ [⟨b, t, l, if s.notices.lost = 0 then none else some s.notices.lost⟩]
        lost := 0, dropped := s.notices.dropped }).withTx { s.tx with told := true })
    ∧ (32 ≤ s.notices.queue.length → ∃ (m : BitVec 16) (n : BitVec 32),
        m.toNat = min 65535 (s.notices.lost.toNat + 1)
        ∧ n.toNat = min 4294967295 (s.notices.dropped.toNat + 1)
        ∧ admitNotice ⟨b, t, l⟩ s = s.withNotices
            { queue := s.notices.queue, lost := m, dropped := n }))
  ∧ (∀ s : State, (s.offered = [] → takeEndClaim .offers s = s)
    ∧ ∀ o rest, s.offered = o :: rest →
      takeEndClaim .offers s = takeEndClaim .offers (admitNotice o (s.withOffered rest)))
  ∧ (∀ (b : NoticeBlock) (s : State),
    ((∀ o ∈ s.offered, o.body.block ≠ b) → takeEndClaim (.offer b) s = s)
    ∧ ∀ before o after, s.offered = before ++ o :: after → o.body.block = b →
      (∀ x ∈ before, x.body.block ≠ b) →
      ((∀ x ∈ before, x.sameTick o = false) →
        takeEndClaim (.offer b) s = admitNotice o (s.withOffered (before ++ after)))
      ∧ ((∃ x ∈ before, x.sameTick o = true) → takeEndClaim (.offer b) s = s))
  ∧ (∀ a b : NoticeOffer, a.sameTick b = true ↔ a.time = b.time ∧ ∀ x ∈ [a.body, b.body],
    (∃ h st n, x = .fired h st n) ∨ (∃ n, x = .truncated n) ∨ x = .timeEnd
      ∨ ∃ h, x = .ended h .done ∨ x = .ended h .range)
  ∧ ∀ x : NoticeBody, x.block = (match x with
    | .fired _ _ _ | .ended _ _ => .actionTable
    | .truncated n => .outputLine n
    | .triggerMiss _ _ => .triggerTable
    | .timeEnd => .timebase
    | .streamStalled => .reportStream
    | .linkError k => if k = .tag0 then .commandBlock else .linkReceiver
    | .ready _ => .reset)

/-! ## The command block -/

/-- RESET with option NONE or HOLD_LINES, queued commands and awaits holding slots of their own: each
command behind it and each await is answered ABORTED, its own slot OK, nothing stands in the queue or
the await list, and reset pending is set with the option; the replies join the reply queue in that
order, RESET's last; no other block is touched but by the boundary (R172, R173). -/
def Obligations.ResetAbortsWhatWaitsAndSetsPending : Prop :=
  ∀ (option : Byte) (c : QueuedCommand) (s : State), inRange (.reset option ·) = true →
    Executes (.reset option ·) c s → (heldSlots s.cmd).Nodup →
    ∃ u : State, (∀ go : Extent, exec (.reset option go) s = .next (settle u))
      ∧ u = (s.withCmd u.cmd).withTx { s.tx with told := true }
      ∧ u.cmd.queue = [] ∧ u.cmd.awaits = [] ∧ u.cmd.progress = .notStarted
      ∧ u.cmd.resetPending = some (if option = 0 then .plain else .holdLines)
      ∧ u.cmd.replyQueue = s.cmd.replyQueue ++ s.cmd.queue.tail.map QueuedCommand.slot
          ++ s.cmd.awaits.map AwaitEntry.slot ++ [c.slot]
      ∧ u.cmd.slots[c.slot] = .filled (replyTo c .ok [])
      ∧ (∀ x ∈ s.cmd.queue.tail, u.cmd.slots[x.slot] = .filled (replyTo x .aborted []))
      ∧ (∀ a ∈ s.cmd.awaits, u.cmd.slots[a.slot] = .filled ⟨0x94, a.tag, [0x0D]⟩)
      ∧ (∀ i : Fin 16, i ∉ heldSlots s.cmd → u.cmd.slots[i] = s.cmd.slots[i])
      ∧ u.cmd.accepted = s.cmd.accepted ∧ u.cmd.refused = s.cmd.refused
      ∧ u.cmd.refusalsLost = s.cmd.refusalsLost ∧ u.cmd.tagZero = s.cmd.tagZero

/-- AWAIT of a handle in range: NO_SUCH when it is not live; AWAIT_FULL with eight entries; otherwise
the command leaves the queue for the end of the await list with its tag, slot and handle, expiring
timeout ms from now or never for 0, and no reply is made (R166). An expiry answers its entry TIMEOUT,
which leaves the list, and touches no record (R169).
That the reference moves to the expiry is the model's reading (notes/assumptions/3.md). -/
def Obligations.AwaitWaitsAndTimesOut : Prop :=
  (∀ (gen slot : Byte) (timeout : BitVec 16) (h : Handle) (c : QueuedCommand) (s : State),
    gen ≠ 0 → h.gen = gen → slot.toNat = h.slot.val → Executes (.await gen slot timeout ·) c s →
    ((∀ r ∈ s.table.records, r.handle ≠ h) →
      Replies (.await gen slot timeout ·) s c .noSuch [] s)
    ∧ ((∃ r ∈ s.table.records, r.handle = h) → 8 ≤ s.cmd.awaits.length →
      Replies (.await gen slot timeout ·) s c .awaitFull [] s)
    ∧ ((∃ r ∈ s.table.records, r.handle = h) → s.cmd.awaits.length < 8 →
      ∀ go : Extent, exec (.await gen slot timeout go) s = .next (settle (s.withCmd { s.cmd with
        queue := s.cmd.queue.tail
        awaits := s.cmd.awaits ++ [⟨c.tag, h, if timeout = 0 then none
          else some (s.now + timeout.toNat * 1000), c.slot⟩] }))))
  ∧ (∀ (tag : Byte) (m : Moment) (a : AwaitEntry) (s : State), s.pins.resetActive = false →
    s.cmd.awaits.find? (fun x => x.tag = tag && x.expiry.isSome) = some a → a.expiry = some m →
    exec (.awaitTimeout tag) s = .next (settle (((s.withNow (max s.now m)).withCmd { s.cmd with
      slots := s.cmd.slots.set a.slot (.filled ⟨0x94, a.tag, [0x0C]⟩)
      replyQueue := s.cmd.replyQueue ++ [a.slot]
      awaits := s.cmd.awaits.erase a }).withTx { s.tx with told := true })))

/-- A frame's CRC_LO character, which begins (R180). A check that differs is a CHECK error: counted,
HUNT, LINK_ERROR (R186, R187). A good frame is sorted by the rows of R160 in order: tag 0 counted and
reported TAG0; ACK handed to the report stream; ABORTED while a reset is pending; UNKNOWN_KIND;
QUEUE_FULL at four commands; DUP_TAG; and otherwise accepted. A refusal fills the lowest FREE slot and
is counted, an acceptance reserves it and appends the command and is counted, and with none FREE the
frame is lost and counted (R161, R162); the counts of errors, refusals and losses stay at 65,535.
After a stop bit sampled LOW the receiver waits for RXD to be HIGH again (R180).
Which FREE slot is taken is the model's choice (notes/assumptions/7.md), and so is the form of a
character (notes/assumptions/14.md). -/
def Obligations.FrameIsSortedByTheFirstRowItMeets : Prop :=
  ∀ (ch : RxChar) (s : State), s.pins.resetActive = false → s.rx.state = .crcLo →
    (s.rx.waitHigh = false ∨ ch.rose = true) → ch.startMid = .low →
    let hunt : Receiver := { Receiver.reset with
      lengthErrors := s.rx.lengthErrors, gapErrors := s.rx.gapErrors
      checkErrors := s.rx.checkErrors, waitHigh := decide (ch.stop = .low) }
    let up1 := fun x : BitVec 16 => if x = 65535 then x else x + 1
    let u := s.withRx hunt
    let tag := s.rx.tag
    let kind := s.rx.kind
    let free := (List.finRange 16).find? (fun i => s.cmd.slots[i] = .free)
    let refused := fun st : Status => match free with
      | none => u.withCmd { s.cmd with refusalsLost := up1 s.cmd.refusalsLost }
      | some i => (u.withCmd { s.cmd with
          slots := s.cmd.slots.set i (.filled ⟨kind ||| 0x80, tag, [st.code]⟩)
          replyQueue := s.cmd.replyQueue ++ [i]
          refused := up1 s.cmd.refused }).withTx { s.tx with told := true }
    exec (.frameReceived ch) s = .next (settle (
      if s.rx.checkHigh ++ ch.data ≠ s.rx.check then
        offerNotice (.linkError .check) s.time.value none
          (s.withRx { hunt with checkErrors := up1 s.rx.checkErrors })
      else if tag = 0 then offerNotice (.linkError .tag0) s.time.value none
        (u.withCmd { s.cmd with tagZero := up1 s.cmd.tagZero })
      else if kind = kindAck then
        u.withHanded { s.handed with acks := s.handed.acks ++ [s.rx.payload] }
      else if s.cmd.resetPending.isSome then refused .aborted
      else if kind ∉ commandKinds then refused .unknownKind
      else if 4 ≤ s.cmd.queue.length then refused .queueFull
      else if tag ∈ usedTags s.cmd then refused .dupTag
      else match free with
        | none => u.withCmd { s.cmd with refusalsLost := up1 s.cmd.refusalsLost }
        | some i => u.withCmd { s.cmd with
            slots := s.cmd.slots.set i .reserved
            queue := s.cmd.queue ++ [⟨tag, kind, s.rx.payload, i⟩]
            accepted := s.cmd.accepted + 1 }))

/-! ## The link -/

/-- Characters and the gap. After a stop bit sampled LOW, and after a device reset (R193), no character
begins until RXD has been HIGH, and a start bit found HIGH at its middle is noise: neither gives a byte (R180). In HUNT, 0xC3 begins a
frame with the check at 0xFFFF and the gap 5 ms on, and any other byte is ignored; LEN, TAG and KIND
are stored and taken into the check, BODY bytes appended and taken into it, and CRC_HI kept and not
taken into it, each with the gap 5 ms on (R182, R184). A LEN byte above 120 is a LENGTH error and the
gap run out in a frame a GAP error: counted, kept at 65,535, HUNT with no partial frame, and
LINK_ERROR with the present value (R183, R184, R187). BYTE_TAKEN follows the machine's table in every
state: a CRC_LO byte ends the frame and a LEN byte above 120 is the error, as the events of those
names, the model's reading (notes/assumptions/14.md).
That the gap moves the reference to its moment is the model's reading (notes/assumptions/3.md). -/
def Obligations.BytesAreTakenByTheirPlaceAndErrorsEndFrames : Prop :=
  ∀ (ch : RxChar) (s : State), s.pins.resetActive = false →
    let up1 := fun x : BitVec 16 => if x = 65535 then x else x + 1
    let begins : Prop := s.rx.waitHigh = false ∨ ch.rose = true
    let byte : Prop := begins ∧ ch.startMid = .low
    let waits : Bool := decide (ch.stop = .low)
    let hunt := fun wait : Bool => { Receiver.reset with
      lengthErrors := s.rx.lengthErrors, gapErrors := s.rx.gapErrors
      checkErrors := s.rx.checkErrors, waitHigh := wait }
    let goTo := fun r : Receiver => Host.Outcome.next (φ := Fault) (ρ := Refusal)
      (settle (s.withRx { r with gapExpiry := some (s.now + 5000), waitHigh := waits }))
    (¬ begins → exec (.byteTaken ch) s = .next (settle s))
    ∧ (begins → ch.startMid = .high →
        exec (.byteTaken ch) s = .next (settle (s.withRx { s.rx with waitHigh := false })))
    ∧ (¬ byte → exec (.frameReceived ch) s = .next s ∧ exec (.lengthError ch) s = .next s)
    ∧ (byte → s.rx.state = .len → ch.data.toNat ≤ 120 → exec (.byteTaken ch) s = goTo
        { s.rx with state := .tag, length := ch.data.toNat, check := crcByte s.rx.check ch.data })
    ∧ (byte → s.rx.state = .tag → exec (.byteTaken ch) s = goTo
        { s.rx with state := .kind, tag := ch.data, check := crcByte s.rx.check ch.data })
    ∧ (byte → s.rx.state = .kind → exec (.byteTaken ch) s = goTo
        { s.rx with state := if s.rx.length = 0 then .crcHi else .body, kind := ch.data
                    check := crcByte s.rx.check ch.data })
    ∧ (byte → s.rx.state = .body → exec (.byteTaken ch) s = goTo
        { s.rx with state := if s.rx.payload.length + 1 < s.rx.length then .body else .crcHi
                    payload := s.rx.payload ++ [ch.data], check := crcByte s.rx.check ch.data })
    ∧ (byte → s.rx.state = .crcHi → exec (.byteTaken ch) s = goTo
        { s.rx with state := .crcLo, checkHigh := ch.data })
    ∧ (byte → s.rx.state = .crcLo → exec (.byteTaken ch) s = exec (.frameReceived ch) s)
    ∧ (byte → s.rx.state = .hunt → ch.data ≠ 0xC3 →
        exec (.byteTaken ch) s = .next (settle (s.withRx { s.rx with waitHigh := waits })))
    ∧ (byte → s.rx.state = .hunt → ch.data = 0xC3 →
        exec (.byteTaken ch) s = goTo { hunt waits with state := .len, check := 0xFFFF })
    ∧ (byte → s.rx.state = .len → 120 < ch.data.toNat →
        exec (.byteTaken ch) s = exec (.lengthError ch) s
        ∧ exec (.lengthError ch) s = .next (settle (offerNotice (.linkError .length) s.time.value none
          (s.withRx { hunt waits with lengthErrors := up1 s.rx.lengthErrors }))))
    ∧ (∀ m, s.rx.gapExpiry = some m → s.rx.state ≠ .hunt →
        exec .gapExpiry s = .next (settle (offerNotice (.linkError .gap) s.time.value none
          ((s.withNow (max s.now m)).withRx
            { hunt s.rx.waitHigh with gapErrors := up1 s.rx.gapErrors }))))

/-- The arbiter at a boundary (R189, R191): a FILLED reply at the front of the reply queue is begun,
its slot SENDING; with none, while a reset is pending, the transmitter is IDLE; otherwise the oldest
notice is begun and leaves its queue; otherwise the oldest marked report, its mark cleared; otherwise
a new report when one is eligible, formed of the oldest WAITING entries up to the batch (R133);
otherwise the transmitter is IDLE and nothing else changes. A report is eligible exactly when the
stream is ON, the window is below four, an entry is WAITING, and the WAITING entries reach the batch
or the oldest of them has waited the hold (R132).
A step ends with the claims of its ending in turn, of which the boundary is taken exactly when an IDLE
transmitter has been told something (R189), and then with the removal reports these leave (R168); the
usual ending takes the removal reports, the offers that wait and then the boundary; a telling left over
is kept while the transmitter is IDLE; with nothing left over and the usual ending the state is as it
was. That a step's claims come at its end, that an ending names them, that no report is left, and that
a boundary's asks have no other claim between them, is the model's choice (notes/assumptions/5.md,
notes/assumptions/19.md). -/
def Obligations.BoundaryAsksItsSourcesInOrder : Prop :=
  ∀ s : State,
    let send := fun (src : FrameSource) (f : Frame) (u : State) =>
      u.withTx { s.tx with state := .sending src f }
    let idle := s.withTx { s.tx with state := .idle }
    (∀ (i : Fin 16) rest r, s.cmd.replyQueue = i :: rest → s.cmd.slots[i] = .filled r →
      boundary s = send (.reply i) ⟨r.tag, r.kind, r.payload⟩ (s.withCmd { s.cmd with
        slots := s.cmd.slots.set i (.sending r), replyQueue := rest }))
    ∧ (s.cmd.replyQueue = [] → s.cmd.resetPending.isSome → boundary s = idle)
    ∧ (s.cmd.replyQueue = [] → s.cmd.resetPending = none →
      (∀ n rest, s.notices.queue = n :: rest → boundary s = send .notice
        ⟨0, 0xF0, noticeBytes n⟩ (s.withNotices { s.notices with queue := rest }))
      ∧ (s.notices.queue = [] → ∀ before r after, s.stream.window = before ++ r :: after →
          r.marked = true → (∀ x ∈ before, x.marked = false) →
          boundary s = send (.resend r.sequence)
            ⟨0, 0xF1, reportPayload r.sequence r.contents⟩ (s.withStream { s.stream with
              window := before ++ { r with marked := false } :: after }))
      ∧ (s.notices.queue = [] → (∀ x ∈ s.stream.window, x.marked = false) → eligible s = false →
          boundary s = idle)
      ∧ (s.notices.queue = [] → (∀ x ∈ s.stream.window, x.marked = false) → eligible s = true →
          boundary s = send (.firstSending s.stream.nextSequence)
            ⟨0, 0xF1, reportPayload s.stream.nextSequence
              (((s.stamps.entries.filter (fun e => decide (e.state = .waiting))).take
                s.stream.batch).map StampEntry.content)⟩ ((s.withStamps { s.stamps with
                  entries := markInFlight s.stream.nextSequence s.stream.batch
                    s.stamps.entries }).withStream { s.stream with
                window := s.stream.window ++ [⟨s.stream.nextSequence,
                  ((s.stamps.entries.filter (fun e => decide (e.state = .waiting))).take
                    s.stream.batch).map StampEntry.content, false⟩]
                nextSequence := if s.stream.nextSequence = 255 then 1
                  else s.stream.nextSequence + 1 })))
    ∧ (eligible s = true ↔ s.stream.state = .on ∧ s.stream.window.length < 4
        ∧ ∃ e rest, s.stamps.entries.filter (fun e => decide (e.state = .waiting)) = e :: rest
          ∧ (s.stream.batch ≤ rest.length + 1 ∨ e.since + s.stream.hold * 1000 ≤ s.now))
    ∧ (s.tx.told = true → s.tx.state = .idle →
        takeEndClaim .boundary s = boundary (s.withTx { s.tx with told := false }))
    ∧ (s.tx.told = false ∨ s.tx.state ≠ .idle → takeEndClaim .boundary s = s)
    ∧ takeEndClaims [] s = s
    ∧ (∀ c cs, takeEndClaims (c :: cs) s = takeEndClaims cs (takeEndClaim c s))
    ∧ (∃ u : State, (s.endings = [] →
          u = takeRemovals (takeEndClaims [.removals, .offers, .boundary] s))
        ∧ (∀ ending rest, s.endings = ending :: rest →
            u = takeRemovals (takeEndClaims ending (s.withEndings rest)))
        ∧ settle s = if u.tx.state = .idle then u else u.withTx { u.tx with told := false })
    ∧ (Quiet s → settle s = s)

/-- The end of a frame's transmission frees a reply's slot, tells no one for a notice, and for a STAMPS
frame sets the retransmit timer as R135's table says: untouched with an empty window or a report still
marked, restarted after a resend, started after a first sending when it is stopped; a boundary follows
(R135, R190). The end of the idle character after a device reset is followed by a boundary (R193). That
each of these boundaries is taken in the step of its event, before any other claim, is the model's
choice (notes/assumptions/5.md). -/
def Obligations.EndOfTransmissionTellsItsSource : Prop :=
  ∀ (f : Frame) (s : State), s.pins.resetActive = false →
    let bare := s.withTx ⟨.idle, false⟩
    let expiry := some (s.now + s.stream.interval * 1000)
    let untouched := s.stream.window = [] ∨ ∃ r ∈ s.stream.window, r.marked = true
    let timed := fun x : Option Moment => bare.withStream { s.stream with timer := x }
    (∀ i : Fin 16, s.tx.state = .sending (.reply i) f → exec .endOfTransmission s
      = .next (settle (boundary (bare.withCmd { s.cmd with slots := s.cmd.slots.set i .free }))))
    ∧ (s.tx.state = .sending .notice f → exec .endOfTransmission s = .next (settle (boundary bare)))
    ∧ (∀ q, s.tx.state = .sending (.resend q) f →
      (untouched → exec .endOfTransmission s = .next (settle (boundary bare)))
      ∧ (¬ untouched → exec .endOfTransmission s = .next (settle (boundary (timed expiry)))))
    ∧ (∀ q, s.tx.state = .sending (.firstSending q) f →
      (untouched ∨ s.stream.timer.isSome →
        exec .endOfTransmission s = .next (settle (boundary bare)))
      ∧ (¬ untouched → s.stream.timer = none →
        exec .endOfTransmission s = .next (settle (boundary (timed expiry)))))
    ∧ (s.tx.state = .postReset → exec .postResetIdleEnd s = .next (settle (boundary bare)))

/-! ## The resets -/

/-- A pending soft reset applies once every slot is FREE, no reply waits and the transmitter is idle:
every block takes its reset values, READY with cause COMMAND alone in the Notice Queue, which tells
the transmitter; with HOLD_LINES each line becomes DIRECT at its level with its idle level kept; the
receive machine keeps its framing with its counts 0, a conversion in progress is aborted, and the
rate, pins and reference stand (R64, R157, R175, R194). Before that it does not take place.
That hand-overs and offers not yet taken stand is the model's choice (notes/assumptions/8.md). So is it
that READY's boundary is a claim of this step's end or of a later one's (notes/assumptions/5.md): with
the usual ending and no offer waiting this step begins READY's frame, and with the boundary left out
READY waits, the transmitter told, and a reply filled first goes before it. -/
def Obligations.SoftResetAppliesWhenDrained : Prop :=
  ∀ (option : ResetOption) (s : State), s.pins.resetActive = false →
    s.cmd.resetPending = some option →
    let drained := (∀ i : Fin 16, s.cmd.slots[i] = .free) ∧ s.cmd.replyQueue = []
      ∧ s.tx.state = .idle
    (¬ drained → exec .resetApplies s = .next s)
    ∧ (drained → ∃ lines : Vector OutputLine 8,
        (∀ n : Fin 8, lines[n] = match option with
          | .plain => ⟨.direct, .low, .low, none⟩
          | .holdLines => ⟨.direct, s.lines[n].idle, s.lines[n].level, none⟩)
        ∧ (let u : State := { State.reset with
            lines := lines
            sampler := { State.reset.sampler with recoveryEnd :=
              if s.sampler.conv.inProgress then some (s.now + 3) else s.sampler.recoveryEnd }
            notices := ⟨[⟨.ready .command, 0, none, none⟩], 0, 0⟩
            rx := { s.rx with lengthErrors := 0, gapErrors := 0, checkErrors := 0 }
            tx := ⟨.idle, true⟩, rate := s.rate, pins := s.pins, now := s.now, handed := s.handed
            offered := s.offered, endings := s.endings, pending := s.pending }
          exec .resetApplies s = .next (settle u)
          ∧ (s.offered = [] → s.endings = [] → exec .resetApplies s
              = .next ((u.withNotices ⟨[], 0, 0⟩).withTx ⟨.sending .notice
                ⟨0, 0xF0, noticeBytes ⟨.ready .command, 0, none, none⟩⟩, false⟩))
          ∧ (∀ rest, s.endings = [] :: rest →
              exec .resetApplies s = .next (u.withEndings rest))))

/-- The device resets. POWER_ON: every block at its reset values, READY with cause POWER, the rate of
the straps. The RESET pin active: the reset values with no notice, a conversion in progress aborted.
Its release: READY with cause PIN as the only notice, and the rate of the straps. TXD is HIGH until the
idle character has passed, and the receiver waits for RXD to stand HIGH, so that its first character
comes from the first fall it sees (R100, R150, R156, R176, R179, R193; for power-on read from R180,
notes/assumptions/14.md). The queue of waiting commands and
events and the endings to come are the model's and are kept.
That the hand-overs and offers which no block has taken stand through a device reset, a notice being
then admitted behind READY as R155 has it for an offer that a reset precedes
(notes/assumptions/8.md), what becomes of the time reference, and that a POWER_ON ends a RESET pin held
active (notes/assumptions/15.md) are the model's choices. -/
def Obligations.DeviceResetsSetTheResetValues : Prop :=
  ∀ (rate1 rate0 : Level) (s : State),
    let code : BitVec 2 := match rate1, rate0 with
      | .low, .low => 0 | .low, .high => 1 | .high, .low => 2 | .high, .high => 3
    let released := { s.pins with rate1 := rate1, rate0 := rate0, resetActive := false }
    (∃ t, exec (.powerOn rate1 rate0) s = .next t ∧ txdLevels t = [.high] ∧ t.rx.waitHigh = true
      ∧ t = { State.reset with rate := code, handed := s.handed, offered := s.offered
                               endings := s.endings, pending := s.pending, pins := released })
    ∧ (∃ t, exec .resetPin s = .next t ∧ txdLevels t = [.high] ∧ t.rx.waitHigh = true
      ∧ t = { State.reset with
          sampler := { State.reset.sampler with recoveryEnd :=
            if s.sampler.conv.inProgress then some (s.now + 3) else s.sampler.recoveryEnd }
          notices := ⟨[], 0, 0⟩, rate := s.rate, now := s.now, handed := s.handed
          offered := s.offered, endings := s.endings, pending := s.pending
          pins := { s.pins with resetActive := true } })
    ∧ (s.pins.resetActive = true → ∃ t, exec (.resetPinRelease rate1 rate0) s = .next t
      ∧ (HeldAtReset s → txdLevels t = [.high] ∧ t.rx.waitHigh = true)
      ∧ t = ((s.withNotices ⟨[⟨.ready .pin, 0, none, none⟩], 0, 0⟩).withRate code).withPins released)

/-- An event whose occasion is absent does not take place, the model's convention
(notes/assumptions/4.md): the state is unchanged. Event by event: while the RESET pin is held, all but
the device resets (R176); the pin's release when it is not held; a source period that would complete a
tick-clock period, a tick-clock period before it, and either while a sample is due of the last one
(R68, notes/assumptions/13.md); a sample of a channel that is OFF or has none to take (R68); the stages
of a conversion in every other state of the converter (R92, R96), and a recovery end that is absent; a
source event, an offer and an acknowledgement that no one has handed over or that is not the oldest
(R104, R123, R140), and a source event during a claim of the Trigger Table (R103); a request that is
not outstanding (R106, R108, R116); the hold with the stream not ON, the window full or no entry
WAITING (R132), and the expiry of a stopped timer (R137); a frame's end and a LENGTH error outside
their states, for another byte or for a character that gives none (R180, R182), and a gap in HUNT or
with no expiry (R184); the end of a transmission or of the idle character outside them (R188, R193);
the timeout of a tag with no timed await (R169); and a soft reset not pending or not drained (R175).
With no command or event waiting a step moves the time reference on by one microsecond and, unless the
RESET pin is held, ends as any step does, the model's choice (notes/assumptions/11.md). -/
def Obligations.EventWithoutItsOccasionChangesNothing : Prop :=
  ∀ s : State,
    (s.pins.resetActive = true → ∀ i : Instr, frameOf i = none →
      (∀ a b, i ≠ .powerOn a b) → i ≠ .resetPin → (∀ a b, i ≠ .resetPinRelease a b) →
      exec i s = .next s)
    ∧ (s.pins.resetActive = false → ∀ a b, exec (.resetPinRelease a b) s = .next s)
    ∧ (s.time.prescaler ≤ s.time.count + 1 → exec .sourcePeriod s = .next s)
    ∧ (s.time.count + 1 < s.time.prescaler → ∀ g v, exec (.tickClockPeriod g v) s = .next s)
    ∧ ((∃ n : Fin 8, s.channels[n].sampling = .due) → exec .sourcePeriod s = .next s
        ∧ ∀ g v, exec (.tickClockPeriod g v) s = .next s)
    ∧ (∀ n : Fin 8, (s.channels[n].run = .off ∨ s.channels[n].sampling = .ahead
          ∨ s.channels[n].sampling = .inStep ∧ s.time.count + 1 < s.time.prescaler) →
        ∀ v, exec (.channelSample n v) s = .next s)
    ∧ ((∀ x m, s.sampler.conv ≠ .acquiring x m) → ∀ v, exec (.endOfAcquisition v) s = .next s)
    ∧ ((∀ x h m, s.sampler.conv ≠ .converting x h m) → exec .endOfConversion s = .next s)
    ∧ (s.sampler.recoveryEnd = none → exec .recoveryEnd s = .next s)
    ∧ (∀ b, (∀ e ∈ s.handed.events, e.source.block ≠ b) ∨ s.triggers.claim.isSome →
        exec (.triggerSourceEvent b) s = .next s)
    ∧ ((∀ e r, s.triggers.claim = some (.event e r) → r.replaces.isSome) →
        exec .triggerAdmissionRequest s = .next s)
    ∧ ((∀ e r, s.triggers.claim = some (.event e r) → r.replaces = none) →
        exec .replacementAdmission s = .next s)
    ∧ ((∀ h rest n, s.triggers.claim ≠ some (.clearing (h :: rest) n)) →
        ∀ go, exec (.triggerCancelRequest go) s = .next s)
    ∧ (∀ b, (∀ o ∈ s.handed.offers, o.what.block ≠ b) → exec (.stampOffer b) s = .next s)
    ∧ (∀ q, (∀ p rest, s.handed.acks = p :: rest → p.length = 1 ∧ p ≠ [q]) →
        exec (.ack q) s = .next s)
    ∧ (s.stream.state ≠ .on ∨ 4 ≤ s.stream.window.length
          ∨ (∀ e ∈ s.stamps.entries, e.state ≠ .waiting) →
        exec .holdTimeReached s = .next s)
    ∧ (s.stream.timer = none → exec .retransmitExpiry s = .next s)
    ∧ (∀ c : RxChar, let noByte := s.rx.waitHigh = true ∧ c.rose = false ∨ c.startMid = .high
        (s.rx.state ≠ .crcLo ∨ noByte → exec (.frameReceived c) s = .next s)
        ∧ (s.rx.state ≠ .len ∨ c.data.toNat ≤ 120 ∨ noByte → exec (.lengthError c) s = .next s))
    ∧ (s.rx.state = .hunt ∨ s.rx.gapExpiry = none → exec .gapExpiry s = .next s)
    ∧ ((∀ x f, s.tx.state ≠ .sending x f) → exec .endOfTransmission s = .next s)
    ∧ (s.tx.state ≠ .postReset → exec .postResetIdleEnd s = .next s)
    ∧ (∀ tag, (∀ a ∈ s.cmd.awaits, a.tag = tag → a.expiry = none) →
        exec (.awaitTimeout tag) s = .next s)
    ∧ (s.cmd.resetPending = none ∨ s.cmd.replyQueue ≠ [] ∨ s.tx.state ≠ .idle
          ∨ (∃ i : Fin 16, s.cmd.slots[i] ≠ .free) →
        exec .resetApplies s = .next s)
    ∧ (s.pending = [] → step s = .next (if s.pins.resetActive then s.withNow (s.now + 1)
        else settle (s.withNow (s.now + 1))))

/-! ## Laws that every step keeps -/

/-- The Action Table stays in order, and in order it holds at most 64 records, no two of them with one
handle (R19, R21, R22). -/
def Obligations.EveryStepKeepsTheTableInOrder : Prop :=
  ∀ s : State, TableInOrder s →
    s.table.records.length ≤ 64 ∧ s.table.records.Pairwise (fun a b => a.handle ≠ b.handle)
    ∧ ∀ t, step s = .next t → TableInOrder t

/-- Running pulses stay legal, and every await goes on waiting on a live record: a removal within the
step has answered its awaits, and that no removal report is left is the model's choice
(notes/assumptions/5.md). -/
def Obligations.EveryStepKeepsPulsesLegalAndAwaitsLive : Prop :=
  ∀ s t : State, step s = .next t →
    (PulsesLegal s → PulsesLegal t) ∧ (AwaitsLive s → AwaitsLive t)
      ∧ (s.removals = [] → t.removals = [])

/-- The channels, the sampler, the receive machine and the Notice Queue each stay legal, and while the
RESET pin is held the part stays at its reset values. While a channel's sample is due of a tick the
timebase value stays where that tick left it, and while one taken ahead has its period to come the
value changes by the tick of that period alone, unless a reset ends both: so a sample's stamp is the
value before the tick of its period or after it (R68), in the model's form of it
(notes/assumptions/13.md). -/
def Obligations.EveryStepKeepsTheInputSideLegal : Prop :=
  ∀ s t : State, step s = .next t →
    (ChannelsLegal s → ChannelsLegal t) ∧ (SamplerLegal s → SamplerLegal t)
    ∧ (ReceiverLegal s → ReceiverLegal t)
    ∧ (s.notices.queue.length ≤ 32 → t.notices.queue.length ≤ 32)
    ∧ (HeldAtReset s → HeldAtReset t)
    ∧ (∀ n : Fin 8, s.channels[n].sampling = .ahead
          ∨ s.channels[n].sampling = .due ∧ s.time.ticked = true →
        t.channels[n] = State.reset.channels[n] ∨ t.time.value = s.time.value
        ∨ s.channels[n].sampling = .ahead ∧ t.channels[n].sampling = .inStep
          ∧ t.time.ticked = true ∧ t.time.value = s.time.value + 1)

/-- The Stamp Queue and the report stream stay legal. -/
def Obligations.EveryStepKeepsTheStreamLegal : Prop :=
  ∀ s t : State, StreamLegal s → step s = .next t → StreamLegal t

/-- The command block and the transmitter stay legal: every slot is accounted for. That the part stands
at its reset values while the RESET pin is held is a law of its own
(`EveryStepKeepsTheInputSideLegal`). -/
def Obligations.EveryStepKeepsEverySlotAccountedFor : Prop :=
  ∀ s t : State, SlotsLegal s → HeldAtReset s → step s = .next t → SlotsLegal t

/-- The triggers' lists stay lists of live instances within their limits. -/
def Obligations.EveryStepKeepsTheInstancesLive : Prop :=
  ∀ s t : State, TriggersLegal s → step s = .next t → TriggersLegal t

end Statements
end

