-- ==== Sys2Proof/Laws/State.lean ====
section
/-! SUPPORT. What each update of one field of the state leaves in every field: one lemma per field and
update, true by rfl. No later proof unfolds a record update. -/

namespace Sys2Proof.Machine

variable (s : State)

/-! ## withTime -/

@[simp] theorem withTime_time (x : Timebase) : (s.withTime x).time = x := rfl
@[simp] theorem withTime_table (x : Timebase) : (s.withTime x).table = s.table := rfl
@[simp] theorem withTime_lines (x : Timebase) : (s.withTime x).lines = s.lines := rfl
@[simp] theorem withTime_channels (x : Timebase) : (s.withTime x).channels = s.channels := rfl
@[simp] theorem withTime_sampler (x : Timebase) : (s.withTime x).sampler = s.sampler := rfl
@[simp] theorem withTime_triggers (x : Timebase) : (s.withTime x).triggers = s.triggers := rfl
@[simp] theorem withTime_stamps (x : Timebase) : (s.withTime x).stamps = s.stamps := rfl
@[simp] theorem withTime_stream (x : Timebase) : (s.withTime x).stream = s.stream := rfl
@[simp] theorem withTime_notices (x : Timebase) : (s.withTime x).notices = s.notices := rfl
@[simp] theorem withTime_cmd (x : Timebase) : (s.withTime x).cmd = s.cmd := rfl
@[simp] theorem withTime_rx (x : Timebase) : (s.withTime x).rx = s.rx := rfl
@[simp] theorem withTime_tx (x : Timebase) : (s.withTime x).tx = s.tx := rfl
@[simp] theorem withTime_rate (x : Timebase) : (s.withTime x).rate = s.rate := rfl
@[simp] theorem withTime_pins (x : Timebase) : (s.withTime x).pins = s.pins := rfl
@[simp] theorem withTime_now (x : Timebase) : (s.withTime x).now = s.now := rfl
@[simp] theorem withTime_handed (x : Timebase) : (s.withTime x).handed = s.handed := rfl
@[simp] theorem withTime_offered (x : Timebase) : (s.withTime x).offered = s.offered := rfl
@[simp] theorem withTime_removals (x : Timebase) : (s.withTime x).removals = s.removals := rfl
@[simp] theorem withTime_endings (x : Timebase) : (s.withTime x).endings = s.endings := rfl
@[simp] theorem withTime_pending (x : Timebase) : (s.withTime x).pending = s.pending := rfl
@[simp] theorem withTime_twice (x y : Timebase) :
    (s.withTime x).withTime y = s.withTime y := rfl
@[simp] theorem withTime_self : s.withTime s.time = s := rfl

/-! ## withTable -/

@[simp] theorem withTable_time (x : ActionTable) : (s.withTable x).time = s.time := rfl
@[simp] theorem withTable_table (x : ActionTable) : (s.withTable x).table = x := rfl
@[simp] theorem withTable_lines (x : ActionTable) : (s.withTable x).lines = s.lines := rfl
@[simp] theorem withTable_channels (x : ActionTable) : (s.withTable x).channels = s.channels := rfl
@[simp] theorem withTable_sampler (x : ActionTable) : (s.withTable x).sampler = s.sampler := rfl
@[simp] theorem withTable_triggers (x : ActionTable) : (s.withTable x).triggers = s.triggers := rfl
@[simp] theorem withTable_stamps (x : ActionTable) : (s.withTable x).stamps = s.stamps := rfl
@[simp] theorem withTable_stream (x : ActionTable) : (s.withTable x).stream = s.stream := rfl
@[simp] theorem withTable_notices (x : ActionTable) : (s.withTable x).notices = s.notices := rfl
@[simp] theorem withTable_cmd (x : ActionTable) : (s.withTable x).cmd = s.cmd := rfl
@[simp] theorem withTable_rx (x : ActionTable) : (s.withTable x).rx = s.rx := rfl
@[simp] theorem withTable_tx (x : ActionTable) : (s.withTable x).tx = s.tx := rfl
@[simp] theorem withTable_rate (x : ActionTable) : (s.withTable x).rate = s.rate := rfl
@[simp] theorem withTable_pins (x : ActionTable) : (s.withTable x).pins = s.pins := rfl
@[simp] theorem withTable_now (x : ActionTable) : (s.withTable x).now = s.now := rfl
@[simp] theorem withTable_handed (x : ActionTable) : (s.withTable x).handed = s.handed := rfl
@[simp] theorem withTable_offered (x : ActionTable) : (s.withTable x).offered = s.offered := rfl
@[simp] theorem withTable_removals (x : ActionTable) : (s.withTable x).removals = s.removals := rfl
@[simp] theorem withTable_endings (x : ActionTable) : (s.withTable x).endings = s.endings := rfl
@[simp] theorem withTable_pending (x : ActionTable) : (s.withTable x).pending = s.pending := rfl
@[simp] theorem withTable_twice (x y : ActionTable) :
    (s.withTable x).withTable y = s.withTable y := rfl
@[simp] theorem withTable_self : s.withTable s.table = s := rfl

/-! ## withLines -/

@[simp] theorem withLines_time (x : Vector OutputLine 8) : (s.withLines x).time = s.time := rfl
@[simp] theorem withLines_table (x : Vector OutputLine 8) : (s.withLines x).table = s.table := rfl
@[simp] theorem withLines_lines (x : Vector OutputLine 8) : (s.withLines x).lines = x := rfl
@[simp] theorem withLines_channels (x : Vector OutputLine 8) :
    (s.withLines x).channels = s.channels := rfl
@[simp] theorem withLines_sampler (x : Vector OutputLine 8) :
    (s.withLines x).sampler = s.sampler := rfl
@[simp] theorem withLines_triggers (x : Vector OutputLine 8) :
    (s.withLines x).triggers = s.triggers := rfl
@[simp] theorem withLines_stamps (x : Vector OutputLine 8) :
    (s.withLines x).stamps = s.stamps := rfl
@[simp] theorem withLines_stream (x : Vector OutputLine 8) :
    (s.withLines x).stream = s.stream := rfl
@[simp] theorem withLines_notices (x : Vector OutputLine 8) :
    (s.withLines x).notices = s.notices := rfl
@[simp] theorem withLines_cmd (x : Vector OutputLine 8) : (s.withLines x).cmd = s.cmd := rfl
@[simp] theorem withLines_rx (x : Vector OutputLine 8) : (s.withLines x).rx = s.rx := rfl
@[simp] theorem withLines_tx (x : Vector OutputLine 8) : (s.withLines x).tx = s.tx := rfl
@[simp] theorem withLines_rate (x : Vector OutputLine 8) : (s.withLines x).rate = s.rate := rfl
@[simp] theorem withLines_pins (x : Vector OutputLine 8) : (s.withLines x).pins = s.pins := rfl
@[simp] theorem withLines_now (x : Vector OutputLine 8) : (s.withLines x).now = s.now := rfl
@[simp] theorem withLines_handed (x : Vector OutputLine 8) :
    (s.withLines x).handed = s.handed := rfl
@[simp] theorem withLines_offered (x : Vector OutputLine 8) :
    (s.withLines x).offered = s.offered := rfl
@[simp] theorem withLines_removals (x : Vector OutputLine 8) :
    (s.withLines x).removals = s.removals := rfl
@[simp] theorem withLines_endings (x : Vector OutputLine 8) :
    (s.withLines x).endings = s.endings := rfl
@[simp] theorem withLines_pending (x : Vector OutputLine 8) :
    (s.withLines x).pending = s.pending := rfl
@[simp] theorem withLines_twice (x y : Vector OutputLine 8) :
    (s.withLines x).withLines y = s.withLines y := rfl
@[simp] theorem withLines_self : s.withLines s.lines = s := rfl

/-! ## withChannels -/

@[simp] theorem withChannels_time (x : Vector Channel 8) : (s.withChannels x).time = s.time := rfl
@[simp] theorem withChannels_table (x : Vector Channel 8) :
    (s.withChannels x).table = s.table := rfl
@[simp] theorem withChannels_lines (x : Vector Channel 8) :
    (s.withChannels x).lines = s.lines := rfl
@[simp] theorem withChannels_channels (x : Vector Channel 8) :
    (s.withChannels x).channels = x := rfl
@[simp] theorem withChannels_sampler (x : Vector Channel 8) :
    (s.withChannels x).sampler = s.sampler := rfl
@[simp] theorem withChannels_triggers (x : Vector Channel 8) :
    (s.withChannels x).triggers = s.triggers := rfl
@[simp] theorem withChannels_stamps (x : Vector Channel 8) :
    (s.withChannels x).stamps = s.stamps := rfl
@[simp] theorem withChannels_stream (x : Vector Channel 8) :
    (s.withChannels x).stream = s.stream := rfl
@[simp] theorem withChannels_notices (x : Vector Channel 8) :
    (s.withChannels x).notices = s.notices := rfl
@[simp] theorem withChannels_cmd (x : Vector Channel 8) : (s.withChannels x).cmd = s.cmd := rfl
@[simp] theorem withChannels_rx (x : Vector Channel 8) : (s.withChannels x).rx = s.rx := rfl
@[simp] theorem withChannels_tx (x : Vector Channel 8) : (s.withChannels x).tx = s.tx := rfl
@[simp] theorem withChannels_rate (x : Vector Channel 8) : (s.withChannels x).rate = s.rate := rfl
@[simp] theorem withChannels_pins (x : Vector Channel 8) : (s.withChannels x).pins = s.pins := rfl
@[simp] theorem withChannels_now (x : Vector Channel 8) : (s.withChannels x).now = s.now := rfl
@[simp] theorem withChannels_handed (x : Vector Channel 8) :
    (s.withChannels x).handed = s.handed := rfl
@[simp] theorem withChannels_offered (x : Vector Channel 8) :
    (s.withChannels x).offered = s.offered := rfl
@[simp] theorem withChannels_removals (x : Vector Channel 8) :
    (s.withChannels x).removals = s.removals := rfl
@[simp] theorem withChannels_endings (x : Vector Channel 8) :
    (s.withChannels x).endings = s.endings := rfl
@[simp] theorem withChannels_pending (x : Vector Channel 8) :
    (s.withChannels x).pending = s.pending := rfl
@[simp] theorem withChannels_twice (x y : Vector Channel 8) :
    (s.withChannels x).withChannels y = s.withChannels y := rfl
@[simp] theorem withChannels_self : s.withChannels s.channels = s := rfl

/-! ## withSampler -/

@[simp] theorem withSampler_time (x : Sampler) : (s.withSampler x).time = s.time := rfl
@[simp] theorem withSampler_table (x : Sampler) : (s.withSampler x).table = s.table := rfl
@[simp] theorem withSampler_lines (x : Sampler) : (s.withSampler x).lines = s.lines := rfl
@[simp] theorem withSampler_channels (x : Sampler) : (s.withSampler x).channels = s.channels := rfl
@[simp] theorem withSampler_sampler (x : Sampler) : (s.withSampler x).sampler = x := rfl
@[simp] theorem withSampler_triggers (x : Sampler) : (s.withSampler x).triggers = s.triggers := rfl
@[simp] theorem withSampler_stamps (x : Sampler) : (s.withSampler x).stamps = s.stamps := rfl
@[simp] theorem withSampler_stream (x : Sampler) : (s.withSampler x).stream = s.stream := rfl
@[simp] theorem withSampler_notices (x : Sampler) : (s.withSampler x).notices = s.notices := rfl
@[simp] theorem withSampler_cmd (x : Sampler) : (s.withSampler x).cmd = s.cmd := rfl
@[simp] theorem withSampler_rx (x : Sampler) : (s.withSampler x).rx = s.rx := rfl
@[simp] theorem withSampler_tx (x : Sampler) : (s.withSampler x).tx = s.tx := rfl
@[simp] theorem withSampler_rate (x : Sampler) : (s.withSampler x).rate = s.rate := rfl
@[simp] theorem withSampler_pins (x : Sampler) : (s.withSampler x).pins = s.pins := rfl
@[simp] theorem withSampler_now (x : Sampler) : (s.withSampler x).now = s.now := rfl
@[simp] theorem withSampler_handed (x : Sampler) : (s.withSampler x).handed = s.handed := rfl
@[simp] theorem withSampler_offered (x : Sampler) : (s.withSampler x).offered = s.offered := rfl
@[simp] theorem withSampler_removals (x : Sampler) : (s.withSampler x).removals = s.removals := rfl
@[simp] theorem withSampler_endings (x : Sampler) : (s.withSampler x).endings = s.endings := rfl
@[simp] theorem withSampler_pending (x : Sampler) : (s.withSampler x).pending = s.pending := rfl
@[simp] theorem withSampler_twice (x y : Sampler) :
    (s.withSampler x).withSampler y = s.withSampler y := rfl
@[simp] theorem withSampler_self : s.withSampler s.sampler = s := rfl

/-! ## withTriggers -/

@[simp] theorem withTriggers_time (x : TriggerTable) : (s.withTriggers x).time = s.time := rfl
@[simp] theorem withTriggers_table (x : TriggerTable) : (s.withTriggers x).table = s.table := rfl
@[simp] theorem withTriggers_lines (x : TriggerTable) : (s.withTriggers x).lines = s.lines := rfl
@[simp] theorem withTriggers_channels (x : TriggerTable) :
    (s.withTriggers x).channels = s.channels := rfl
@[simp] theorem withTriggers_sampler (x : TriggerTable) :
    (s.withTriggers x).sampler = s.sampler := rfl
@[simp] theorem withTriggers_triggers (x : TriggerTable) : (s.withTriggers x).triggers = x := rfl
@[simp] theorem withTriggers_stamps (x : TriggerTable) : (s.withTriggers x).stamps = s.stamps := rfl
@[simp] theorem withTriggers_stream (x : TriggerTable) : (s.withTriggers x).stream = s.stream := rfl
@[simp] theorem withTriggers_notices (x : TriggerTable) :
    (s.withTriggers x).notices = s.notices := rfl
@[simp] theorem withTriggers_cmd (x : TriggerTable) : (s.withTriggers x).cmd = s.cmd := rfl
@[simp] theorem withTriggers_rx (x : TriggerTable) : (s.withTriggers x).rx = s.rx := rfl
@[simp] theorem withTriggers_tx (x : TriggerTable) : (s.withTriggers x).tx = s.tx := rfl
@[simp] theorem withTriggers_rate (x : TriggerTable) : (s.withTriggers x).rate = s.rate := rfl
@[simp] theorem withTriggers_pins (x : TriggerTable) : (s.withTriggers x).pins = s.pins := rfl
@[simp] theorem withTriggers_now (x : TriggerTable) : (s.withTriggers x).now = s.now := rfl
@[simp] theorem withTriggers_handed (x : TriggerTable) : (s.withTriggers x).handed = s.handed := rfl
@[simp] theorem withTriggers_offered (x : TriggerTable) :
    (s.withTriggers x).offered = s.offered := rfl
@[simp] theorem withTriggers_removals (x : TriggerTable) :
    (s.withTriggers x).removals = s.removals := rfl
@[simp] theorem withTriggers_endings (x : TriggerTable) :
    (s.withTriggers x).endings = s.endings := rfl
@[simp] theorem withTriggers_pending (x : TriggerTable) :
    (s.withTriggers x).pending = s.pending := rfl
@[simp] theorem withTriggers_twice (x y : TriggerTable) :
    (s.withTriggers x).withTriggers y = s.withTriggers y := rfl
@[simp] theorem withTriggers_self : s.withTriggers s.triggers = s := rfl

/-! ## withStamps -/

@[simp] theorem withStamps_time (x : StampQueue) : (s.withStamps x).time = s.time := rfl
@[simp] theorem withStamps_table (x : StampQueue) : (s.withStamps x).table = s.table := rfl
@[simp] theorem withStamps_lines (x : StampQueue) : (s.withStamps x).lines = s.lines := rfl
@[simp] theorem withStamps_channels (x : StampQueue) : (s.withStamps x).channels = s.channels := rfl
@[simp] theorem withStamps_sampler (x : StampQueue) : (s.withStamps x).sampler = s.sampler := rfl
@[simp] theorem withStamps_triggers (x : StampQueue) : (s.withStamps x).triggers = s.triggers := rfl
@[simp] theorem withStamps_stamps (x : StampQueue) : (s.withStamps x).stamps = x := rfl
@[simp] theorem withStamps_stream (x : StampQueue) : (s.withStamps x).stream = s.stream := rfl
@[simp] theorem withStamps_notices (x : StampQueue) : (s.withStamps x).notices = s.notices := rfl
@[simp] theorem withStamps_cmd (x : StampQueue) : (s.withStamps x).cmd = s.cmd := rfl
@[simp] theorem withStamps_rx (x : StampQueue) : (s.withStamps x).rx = s.rx := rfl
@[simp] theorem withStamps_tx (x : StampQueue) : (s.withStamps x).tx = s.tx := rfl
@[simp] theorem withStamps_rate (x : StampQueue) : (s.withStamps x).rate = s.rate := rfl
@[simp] theorem withStamps_pins (x : StampQueue) : (s.withStamps x).pins = s.pins := rfl
@[simp] theorem withStamps_now (x : StampQueue) : (s.withStamps x).now = s.now := rfl
@[simp] theorem withStamps_handed (x : StampQueue) : (s.withStamps x).handed = s.handed := rfl
@[simp] theorem withStamps_offered (x : StampQueue) : (s.withStamps x).offered = s.offered := rfl
@[simp] theorem withStamps_removals (x : StampQueue) : (s.withStamps x).removals = s.removals := rfl
@[simp] theorem withStamps_endings (x : StampQueue) : (s.withStamps x).endings = s.endings := rfl
@[simp] theorem withStamps_pending (x : StampQueue) : (s.withStamps x).pending = s.pending := rfl
@[simp] theorem withStamps_twice (x y : StampQueue) :
    (s.withStamps x).withStamps y = s.withStamps y := rfl
@[simp] theorem withStamps_self : s.withStamps s.stamps = s := rfl

/-! ## withStream -/

@[simp] theorem withStream_time (x : ReportStream) : (s.withStream x).time = s.time := rfl
@[simp] theorem withStream_table (x : ReportStream) : (s.withStream x).table = s.table := rfl
@[simp] theorem withStream_lines (x : ReportStream) : (s.withStream x).lines = s.lines := rfl
@[simp] theorem withStream_channels (x : ReportStream) :
    (s.withStream x).channels = s.channels := rfl
@[simp] theorem withStream_sampler (x : ReportStream) : (s.withStream x).sampler = s.sampler := rfl
@[simp] theorem withStream_triggers (x : ReportStream) :
    (s.withStream x).triggers = s.triggers := rfl
@[simp] theorem withStream_stamps (x : ReportStream) : (s.withStream x).stamps = s.stamps := rfl
@[simp] theorem withStream_stream (x : ReportStream) : (s.withStream x).stream = x := rfl
@[simp] theorem withStream_notices (x : ReportStream) : (s.withStream x).notices = s.notices := rfl
@[simp] theorem withStream_cmd (x : ReportStream) : (s.withStream x).cmd = s.cmd := rfl
@[simp] theorem withStream_rx (x : ReportStream) : (s.withStream x).rx = s.rx := rfl
@[simp] theorem withStream_tx (x : ReportStream) : (s.withStream x).tx = s.tx := rfl
@[simp] theorem withStream_rate (x : ReportStream) : (s.withStream x).rate = s.rate := rfl
@[simp] theorem withStream_pins (x : ReportStream) : (s.withStream x).pins = s.pins := rfl
@[simp] theorem withStream_now (x : ReportStream) : (s.withStream x).now = s.now := rfl
@[simp] theorem withStream_handed (x : ReportStream) : (s.withStream x).handed = s.handed := rfl
@[simp] theorem withStream_offered (x : ReportStream) : (s.withStream x).offered = s.offered := rfl
@[simp] theorem withStream_removals (x : ReportStream) :
    (s.withStream x).removals = s.removals := rfl
@[simp] theorem withStream_endings (x : ReportStream) : (s.withStream x).endings = s.endings := rfl
@[simp] theorem withStream_pending (x : ReportStream) : (s.withStream x).pending = s.pending := rfl
@[simp] theorem withStream_twice (x y : ReportStream) :
    (s.withStream x).withStream y = s.withStream y := rfl
@[simp] theorem withStream_self : s.withStream s.stream = s := rfl

/-! ## withNotices -/

@[simp] theorem withNotices_time (x : NoticeQueue) : (s.withNotices x).time = s.time := rfl
@[simp] theorem withNotices_table (x : NoticeQueue) : (s.withNotices x).table = s.table := rfl
@[simp] theorem withNotices_lines (x : NoticeQueue) : (s.withNotices x).lines = s.lines := rfl
@[simp] theorem withNotices_channels (x : NoticeQueue) :
    (s.withNotices x).channels = s.channels := rfl
@[simp] theorem withNotices_sampler (x : NoticeQueue) : (s.withNotices x).sampler = s.sampler := rfl
@[simp] theorem withNotices_triggers (x : NoticeQueue) :
    (s.withNotices x).triggers = s.triggers := rfl
@[simp] theorem withNotices_stamps (x : NoticeQueue) : (s.withNotices x).stamps = s.stamps := rfl
@[simp] theorem withNotices_stream (x : NoticeQueue) : (s.withNotices x).stream = s.stream := rfl
@[simp] theorem withNotices_notices (x : NoticeQueue) : (s.withNotices x).notices = x := rfl
@[simp] theorem withNotices_cmd (x : NoticeQueue) : (s.withNotices x).cmd = s.cmd := rfl
@[simp] theorem withNotices_rx (x : NoticeQueue) : (s.withNotices x).rx = s.rx := rfl
@[simp] theorem withNotices_tx (x : NoticeQueue) : (s.withNotices x).tx = s.tx := rfl
@[simp] theorem withNotices_rate (x : NoticeQueue) : (s.withNotices x).rate = s.rate := rfl
@[simp] theorem withNotices_pins (x : NoticeQueue) : (s.withNotices x).pins = s.pins := rfl
@[simp] theorem withNotices_now (x : NoticeQueue) : (s.withNotices x).now = s.now := rfl
@[simp] theorem withNotices_handed (x : NoticeQueue) : (s.withNotices x).handed = s.handed := rfl
@[simp] theorem withNotices_offered (x : NoticeQueue) : (s.withNotices x).offered = s.offered := rfl
@[simp] theorem withNotices_removals (x : NoticeQueue) :
    (s.withNotices x).removals = s.removals := rfl
@[simp] theorem withNotices_endings (x : NoticeQueue) : (s.withNotices x).endings = s.endings := rfl
@[simp] theorem withNotices_pending (x : NoticeQueue) : (s.withNotices x).pending = s.pending := rfl
@[simp] theorem withNotices_twice (x y : NoticeQueue) :
    (s.withNotices x).withNotices y = s.withNotices y := rfl
@[simp] theorem withNotices_self : s.withNotices s.notices = s := rfl

/-! ## withCmd -/

@[simp] theorem withCmd_time (x : CommandBlock) : (s.withCmd x).time = s.time := rfl
@[simp] theorem withCmd_table (x : CommandBlock) : (s.withCmd x).table = s.table := rfl
@[simp] theorem withCmd_lines (x : CommandBlock) : (s.withCmd x).lines = s.lines := rfl
@[simp] theorem withCmd_channels (x : CommandBlock) : (s.withCmd x).channels = s.channels := rfl
@[simp] theorem withCmd_sampler (x : CommandBlock) : (s.withCmd x).sampler = s.sampler := rfl
@[simp] theorem withCmd_triggers (x : CommandBlock) : (s.withCmd x).triggers = s.triggers := rfl
@[simp] theorem withCmd_stamps (x : CommandBlock) : (s.withCmd x).stamps = s.stamps := rfl
@[simp] theorem withCmd_stream (x : CommandBlock) : (s.withCmd x).stream = s.stream := rfl
@[simp] theorem withCmd_notices (x : CommandBlock) : (s.withCmd x).notices = s.notices := rfl
@[simp] theorem withCmd_cmd (x : CommandBlock) : (s.withCmd x).cmd = x := rfl
@[simp] theorem withCmd_rx (x : CommandBlock) : (s.withCmd x).rx = s.rx := rfl
@[simp] theorem withCmd_tx (x : CommandBlock) : (s.withCmd x).tx = s.tx := rfl
@[simp] theorem withCmd_rate (x : CommandBlock) : (s.withCmd x).rate = s.rate := rfl
@[simp] theorem withCmd_pins (x : CommandBlock) : (s.withCmd x).pins = s.pins := rfl
@[simp] theorem withCmd_now (x : CommandBlock) : (s.withCmd x).now = s.now := rfl
@[simp] theorem withCmd_handed (x : CommandBlock) : (s.withCmd x).handed = s.handed := rfl
@[simp] theorem withCmd_offered (x : CommandBlock) : (s.withCmd x).offered = s.offered := rfl
@[simp] theorem withCmd_removals (x : CommandBlock) : (s.withCmd x).removals = s.removals := rfl
@[simp] theorem withCmd_endings (x : CommandBlock) : (s.withCmd x).endings = s.endings := rfl
@[simp] theorem withCmd_pending (x : CommandBlock) : (s.withCmd x).pending = s.pending := rfl
@[simp] theorem withCmd_twice (x y : CommandBlock) :
    (s.withCmd x).withCmd y = s.withCmd y := rfl
@[simp] theorem withCmd_self : s.withCmd s.cmd = s := rfl

/-! ## withRx -/

@[simp] theorem withRx_time (x : Receiver) : (s.withRx x).time = s.time := rfl
@[simp] theorem withRx_table (x : Receiver) : (s.withRx x).table = s.table := rfl
@[simp] theorem withRx_lines (x : Receiver) : (s.withRx x).lines = s.lines := rfl
@[simp] theorem withRx_channels (x : Receiver) : (s.withRx x).channels = s.channels := rfl
@[simp] theorem withRx_sampler (x : Receiver) : (s.withRx x).sampler = s.sampler := rfl
@[simp] theorem withRx_triggers (x : Receiver) : (s.withRx x).triggers = s.triggers := rfl
@[simp] theorem withRx_stamps (x : Receiver) : (s.withRx x).stamps = s.stamps := rfl
@[simp] theorem withRx_stream (x : Receiver) : (s.withRx x).stream = s.stream := rfl
@[simp] theorem withRx_notices (x : Receiver) : (s.withRx x).notices = s.notices := rfl
@[simp] theorem withRx_cmd (x : Receiver) : (s.withRx x).cmd = s.cmd := rfl
@[simp] theorem withRx_rx (x : Receiver) : (s.withRx x).rx = x := rfl
@[simp] theorem withRx_tx (x : Receiver) : (s.withRx x).tx = s.tx := rfl
@[simp] theorem withRx_rate (x : Receiver) : (s.withRx x).rate = s.rate := rfl
@[simp] theorem withRx_pins (x : Receiver) : (s.withRx x).pins = s.pins := rfl
@[simp] theorem withRx_now (x : Receiver) : (s.withRx x).now = s.now := rfl
@[simp] theorem withRx_handed (x : Receiver) : (s.withRx x).handed = s.handed := rfl
@[simp] theorem withRx_offered (x : Receiver) : (s.withRx x).offered = s.offered := rfl
@[simp] theorem withRx_removals (x : Receiver) : (s.withRx x).removals = s.removals := rfl
@[simp] theorem withRx_endings (x : Receiver) : (s.withRx x).endings = s.endings := rfl
@[simp] theorem withRx_pending (x : Receiver) : (s.withRx x).pending = s.pending := rfl
@[simp] theorem withRx_twice (x y : Receiver) :
    (s.withRx x).withRx y = s.withRx y := rfl
@[simp] theorem withRx_self : s.withRx s.rx = s := rfl

/-! ## withTx -/

@[simp] theorem withTx_time (x : Transmitter) : (s.withTx x).time = s.time := rfl
@[simp] theorem withTx_table (x : Transmitter) : (s.withTx x).table = s.table := rfl
@[simp] theorem withTx_lines (x : Transmitter) : (s.withTx x).lines = s.lines := rfl
@[simp] theorem withTx_channels (x : Transmitter) : (s.withTx x).channels = s.channels := rfl
@[simp] theorem withTx_sampler (x : Transmitter) : (s.withTx x).sampler = s.sampler := rfl
@[simp] theorem withTx_triggers (x : Transmitter) : (s.withTx x).triggers = s.triggers := rfl
@[simp] theorem withTx_stamps (x : Transmitter) : (s.withTx x).stamps = s.stamps := rfl
@[simp] theorem withTx_stream (x : Transmitter) : (s.withTx x).stream = s.stream := rfl
@[simp] theorem withTx_notices (x : Transmitter) : (s.withTx x).notices = s.notices := rfl
@[simp] theorem withTx_cmd (x : Transmitter) : (s.withTx x).cmd = s.cmd := rfl
@[simp] theorem withTx_rx (x : Transmitter) : (s.withTx x).rx = s.rx := rfl
@[simp] theorem withTx_tx (x : Transmitter) : (s.withTx x).tx = x := rfl
@[simp] theorem withTx_rate (x : Transmitter) : (s.withTx x).rate = s.rate := rfl
@[simp] theorem withTx_pins (x : Transmitter) : (s.withTx x).pins = s.pins := rfl
@[simp] theorem withTx_now (x : Transmitter) : (s.withTx x).now = s.now := rfl
@[simp] theorem withTx_handed (x : Transmitter) : (s.withTx x).handed = s.handed := rfl
@[simp] theorem withTx_offered (x : Transmitter) : (s.withTx x).offered = s.offered := rfl
@[simp] theorem withTx_removals (x : Transmitter) : (s.withTx x).removals = s.removals := rfl
@[simp] theorem withTx_endings (x : Transmitter) : (s.withTx x).endings = s.endings := rfl
@[simp] theorem withTx_pending (x : Transmitter) : (s.withTx x).pending = s.pending := rfl
@[simp] theorem withTx_twice (x y : Transmitter) :
    (s.withTx x).withTx y = s.withTx y := rfl
@[simp] theorem withTx_self : s.withTx s.tx = s := rfl

/-! ## withRate -/

@[simp] theorem withRate_time (x : BitVec 2) : (s.withRate x).time = s.time := rfl
@[simp] theorem withRate_table (x : BitVec 2) : (s.withRate x).table = s.table := rfl
@[simp] theorem withRate_lines (x : BitVec 2) : (s.withRate x).lines = s.lines := rfl
@[simp] theorem withRate_channels (x : BitVec 2) : (s.withRate x).channels = s.channels := rfl
@[simp] theorem withRate_sampler (x : BitVec 2) : (s.withRate x).sampler = s.sampler := rfl
@[simp] theorem withRate_triggers (x : BitVec 2) : (s.withRate x).triggers = s.triggers := rfl
@[simp] theorem withRate_stamps (x : BitVec 2) : (s.withRate x).stamps = s.stamps := rfl
@[simp] theorem withRate_stream (x : BitVec 2) : (s.withRate x).stream = s.stream := rfl
@[simp] theorem withRate_notices (x : BitVec 2) : (s.withRate x).notices = s.notices := rfl
@[simp] theorem withRate_cmd (x : BitVec 2) : (s.withRate x).cmd = s.cmd := rfl
@[simp] theorem withRate_rx (x : BitVec 2) : (s.withRate x).rx = s.rx := rfl
@[simp] theorem withRate_tx (x : BitVec 2) : (s.withRate x).tx = s.tx := rfl
@[simp] theorem withRate_rate (x : BitVec 2) : (s.withRate x).rate = x := rfl
@[simp] theorem withRate_pins (x : BitVec 2) : (s.withRate x).pins = s.pins := rfl
@[simp] theorem withRate_now (x : BitVec 2) : (s.withRate x).now = s.now := rfl
@[simp] theorem withRate_handed (x : BitVec 2) : (s.withRate x).handed = s.handed := rfl
@[simp] theorem withRate_offered (x : BitVec 2) : (s.withRate x).offered = s.offered := rfl
@[simp] theorem withRate_removals (x : BitVec 2) : (s.withRate x).removals = s.removals := rfl
@[simp] theorem withRate_endings (x : BitVec 2) : (s.withRate x).endings = s.endings := rfl
@[simp] theorem withRate_pending (x : BitVec 2) : (s.withRate x).pending = s.pending := rfl
@[simp] theorem withRate_twice (x y : BitVec 2) :
    (s.withRate x).withRate y = s.withRate y := rfl
@[simp] theorem withRate_self : s.withRate s.rate = s := rfl

/-! ## withPins -/

@[simp] theorem withPins_time (x : Pins) : (s.withPins x).time = s.time := rfl
@[simp] theorem withPins_table (x : Pins) : (s.withPins x).table = s.table := rfl
@[simp] theorem withPins_lines (x : Pins) : (s.withPins x).lines = s.lines := rfl
@[simp] theorem withPins_channels (x : Pins) : (s.withPins x).channels = s.channels := rfl
@[simp] theorem withPins_sampler (x : Pins) : (s.withPins x).sampler = s.sampler := rfl
@[simp] theorem withPins_triggers (x : Pins) : (s.withPins x).triggers = s.triggers := rfl
@[simp] theorem withPins_stamps (x : Pins) : (s.withPins x).stamps = s.stamps := rfl
@[simp] theorem withPins_stream (x : Pins) : (s.withPins x).stream = s.stream := rfl
@[simp] theorem withPins_notices (x : Pins) : (s.withPins x).notices = s.notices := rfl
@[simp] theorem withPins_cmd (x : Pins) : (s.withPins x).cmd = s.cmd := rfl
@[simp] theorem withPins_rx (x : Pins) : (s.withPins x).rx = s.rx := rfl
@[simp] theorem withPins_tx (x : Pins) : (s.withPins x).tx = s.tx := rfl
@[simp] theorem withPins_rate (x : Pins) : (s.withPins x).rate = s.rate := rfl
@[simp] theorem withPins_pins (x : Pins) : (s.withPins x).pins = x := rfl
@[simp] theorem withPins_now (x : Pins) : (s.withPins x).now = s.now := rfl
@[simp] theorem withPins_handed (x : Pins) : (s.withPins x).handed = s.handed := rfl
@[simp] theorem withPins_offered (x : Pins) : (s.withPins x).offered = s.offered := rfl
@[simp] theorem withPins_removals (x : Pins) : (s.withPins x).removals = s.removals := rfl
@[simp] theorem withPins_endings (x : Pins) : (s.withPins x).endings = s.endings := rfl
@[simp] theorem withPins_pending (x : Pins) : (s.withPins x).pending = s.pending := rfl
@[simp] theorem withPins_twice (x y : Pins) :
    (s.withPins x).withPins y = s.withPins y := rfl
@[simp] theorem withPins_self : s.withPins s.pins = s := rfl

/-! ## withNow -/

@[simp] theorem withNow_time (x : Moment) : (s.withNow x).time = s.time := rfl
@[simp] theorem withNow_table (x : Moment) : (s.withNow x).table = s.table := rfl
@[simp] theorem withNow_lines (x : Moment) : (s.withNow x).lines = s.lines := rfl
@[simp] theorem withNow_channels (x : Moment) : (s.withNow x).channels = s.channels := rfl
@[simp] theorem withNow_sampler (x : Moment) : (s.withNow x).sampler = s.sampler := rfl
@[simp] theorem withNow_triggers (x : Moment) : (s.withNow x).triggers = s.triggers := rfl
@[simp] theorem withNow_stamps (x : Moment) : (s.withNow x).stamps = s.stamps := rfl
@[simp] theorem withNow_stream (x : Moment) : (s.withNow x).stream = s.stream := rfl
@[simp] theorem withNow_notices (x : Moment) : (s.withNow x).notices = s.notices := rfl
@[simp] theorem withNow_cmd (x : Moment) : (s.withNow x).cmd = s.cmd := rfl
@[simp] theorem withNow_rx (x : Moment) : (s.withNow x).rx = s.rx := rfl
@[simp] theorem withNow_tx (x : Moment) : (s.withNow x).tx = s.tx := rfl
@[simp] theorem withNow_rate (x : Moment) : (s.withNow x).rate = s.rate := rfl
@[simp] theorem withNow_pins (x : Moment) : (s.withNow x).pins = s.pins := rfl
@[simp] theorem withNow_now (x : Moment) : (s.withNow x).now = x := rfl
@[simp] theorem withNow_handed (x : Moment) : (s.withNow x).handed = s.handed := rfl
@[simp] theorem withNow_offered (x : Moment) : (s.withNow x).offered = s.offered := rfl
@[simp] theorem withNow_removals (x : Moment) : (s.withNow x).removals = s.removals := rfl
@[simp] theorem withNow_endings (x : Moment) : (s.withNow x).endings = s.endings := rfl
@[simp] theorem withNow_pending (x : Moment) : (s.withNow x).pending = s.pending := rfl
@[simp] theorem withNow_twice (x y : Moment) :
    (s.withNow x).withNow y = s.withNow y := rfl
@[simp] theorem withNow_self : s.withNow s.now = s := rfl

/-! ## withHanded -/

@[simp] theorem withHanded_time (x : Handovers) : (s.withHanded x).time = s.time := rfl
@[simp] theorem withHanded_table (x : Handovers) : (s.withHanded x).table = s.table := rfl
@[simp] theorem withHanded_lines (x : Handovers) : (s.withHanded x).lines = s.lines := rfl
@[simp] theorem withHanded_channels (x : Handovers) : (s.withHanded x).channels = s.channels := rfl
@[simp] theorem withHanded_sampler (x : Handovers) : (s.withHanded x).sampler = s.sampler := rfl
@[simp] theorem withHanded_triggers (x : Handovers) : (s.withHanded x).triggers = s.triggers := rfl
@[simp] theorem withHanded_stamps (x : Handovers) : (s.withHanded x).stamps = s.stamps := rfl
@[simp] theorem withHanded_stream (x : Handovers) : (s.withHanded x).stream = s.stream := rfl
@[simp] theorem withHanded_notices (x : Handovers) : (s.withHanded x).notices = s.notices := rfl
@[simp] theorem withHanded_cmd (x : Handovers) : (s.withHanded x).cmd = s.cmd := rfl
@[simp] theorem withHanded_rx (x : Handovers) : (s.withHanded x).rx = s.rx := rfl
@[simp] theorem withHanded_tx (x : Handovers) : (s.withHanded x).tx = s.tx := rfl
@[simp] theorem withHanded_rate (x : Handovers) : (s.withHanded x).rate = s.rate := rfl
@[simp] theorem withHanded_pins (x : Handovers) : (s.withHanded x).pins = s.pins := rfl
@[simp] theorem withHanded_now (x : Handovers) : (s.withHanded x).now = s.now := rfl
@[simp] theorem withHanded_handed (x : Handovers) : (s.withHanded x).handed = x := rfl
@[simp] theorem withHanded_offered (x : Handovers) : (s.withHanded x).offered = s.offered := rfl
@[simp] theorem withHanded_removals (x : Handovers) : (s.withHanded x).removals = s.removals := rfl
@[simp] theorem withHanded_endings (x : Handovers) : (s.withHanded x).endings = s.endings := rfl
@[simp] theorem withHanded_pending (x : Handovers) : (s.withHanded x).pending = s.pending := rfl
@[simp] theorem withHanded_twice (x y : Handovers) :
    (s.withHanded x).withHanded y = s.withHanded y := rfl
@[simp] theorem withHanded_self : s.withHanded s.handed = s := rfl

/-! ## withOffered -/

@[simp] theorem withOffered_time (x : List NoticeOffer) : (s.withOffered x).time = s.time := rfl
@[simp] theorem withOffered_table (x : List NoticeOffer) : (s.withOffered x).table = s.table := rfl
@[simp] theorem withOffered_lines (x : List NoticeOffer) : (s.withOffered x).lines = s.lines := rfl
@[simp] theorem withOffered_channels (x : List NoticeOffer) :
    (s.withOffered x).channels = s.channels := rfl
@[simp] theorem withOffered_sampler (x : List NoticeOffer) :
    (s.withOffered x).sampler = s.sampler := rfl
@[simp] theorem withOffered_triggers (x : List NoticeOffer) :
    (s.withOffered x).triggers = s.triggers := rfl
@[simp] theorem withOffered_stamps (x : List NoticeOffer) :
    (s.withOffered x).stamps = s.stamps := rfl
@[simp] theorem withOffered_stream (x : List NoticeOffer) :
    (s.withOffered x).stream = s.stream := rfl
@[simp] theorem withOffered_notices (x : List NoticeOffer) :
    (s.withOffered x).notices = s.notices := rfl
@[simp] theorem withOffered_cmd (x : List NoticeOffer) : (s.withOffered x).cmd = s.cmd := rfl
@[simp] theorem withOffered_rx (x : List NoticeOffer) : (s.withOffered x).rx = s.rx := rfl
@[simp] theorem withOffered_tx (x : List NoticeOffer) : (s.withOffered x).tx = s.tx := rfl
@[simp] theorem withOffered_rate (x : List NoticeOffer) : (s.withOffered x).rate = s.rate := rfl
@[simp] theorem withOffered_pins (x : List NoticeOffer) : (s.withOffered x).pins = s.pins := rfl
@[simp] theorem withOffered_now (x : List NoticeOffer) : (s.withOffered x).now = s.now := rfl
@[simp] theorem withOffered_handed (x : List NoticeOffer) :
    (s.withOffered x).handed = s.handed := rfl
@[simp] theorem withOffered_offered (x : List NoticeOffer) : (s.withOffered x).offered = x := rfl
@[simp] theorem withOffered_removals (x : List NoticeOffer) :
    (s.withOffered x).removals = s.removals := rfl
@[simp] theorem withOffered_endings (x : List NoticeOffer) :
    (s.withOffered x).endings = s.endings := rfl
@[simp] theorem withOffered_pending (x : List NoticeOffer) :
    (s.withOffered x).pending = s.pending := rfl
@[simp] theorem withOffered_twice (x y : List NoticeOffer) :
    (s.withOffered x).withOffered y = s.withOffered y := rfl
@[simp] theorem withOffered_self : s.withOffered s.offered = s := rfl

/-! ## withRemovals -/

@[simp] theorem withRemovals_time (x : List RemovalReport) : (s.withRemovals x).time = s.time := rfl
@[simp] theorem withRemovals_table (x : List RemovalReport) :
    (s.withRemovals x).table = s.table := rfl
@[simp] theorem withRemovals_lines (x : List RemovalReport) :
    (s.withRemovals x).lines = s.lines := rfl
@[simp] theorem withRemovals_channels (x : List RemovalReport) :
    (s.withRemovals x).channels = s.channels := rfl
@[simp] theorem withRemovals_sampler (x : List RemovalReport) :
    (s.withRemovals x).sampler = s.sampler := rfl
@[simp] theorem withRemovals_triggers (x : List RemovalReport) :
    (s.withRemovals x).triggers = s.triggers := rfl
@[simp] theorem withRemovals_stamps (x : List RemovalReport) :
    (s.withRemovals x).stamps = s.stamps := rfl
@[simp] theorem withRemovals_stream (x : List RemovalReport) :
    (s.withRemovals x).stream = s.stream := rfl
@[simp] theorem withRemovals_notices (x : List RemovalReport) :
    (s.withRemovals x).notices = s.notices := rfl
@[simp] theorem withRemovals_cmd (x : List RemovalReport) : (s.withRemovals x).cmd = s.cmd := rfl
@[simp] theorem withRemovals_rx (x : List RemovalReport) : (s.withRemovals x).rx = s.rx := rfl
@[simp] theorem withRemovals_tx (x : List RemovalReport) : (s.withRemovals x).tx = s.tx := rfl
@[simp] theorem withRemovals_rate (x : List RemovalReport) : (s.withRemovals x).rate = s.rate := rfl
@[simp] theorem withRemovals_pins (x : List RemovalReport) : (s.withRemovals x).pins = s.pins := rfl
@[simp] theorem withRemovals_now (x : List RemovalReport) : (s.withRemovals x).now = s.now := rfl
@[simp] theorem withRemovals_handed (x : List RemovalReport) :
    (s.withRemovals x).handed = s.handed := rfl
@[simp] theorem withRemovals_offered (x : List RemovalReport) :
    (s.withRemovals x).offered = s.offered := rfl
@[simp] theorem withRemovals_removals (x : List RemovalReport) :
    (s.withRemovals x).removals = x := rfl
@[simp] theorem withRemovals_endings (x : List RemovalReport) :
    (s.withRemovals x).endings = s.endings := rfl
@[simp] theorem withRemovals_pending (x : List RemovalReport) :
    (s.withRemovals x).pending = s.pending := rfl
@[simp] theorem withRemovals_twice (x y : List RemovalReport) :
    (s.withRemovals x).withRemovals y = s.withRemovals y := rfl
@[simp] theorem withRemovals_self : s.withRemovals s.removals = s := rfl

/-! ## withEndings -/

@[simp] theorem withEndings_time (x : List (List EndClaim)) : (s.withEndings x).time = s.time := rfl
@[simp] theorem withEndings_table (x : List (List EndClaim)) :
    (s.withEndings x).table = s.table := rfl
@[simp] theorem withEndings_lines (x : List (List EndClaim)) :
    (s.withEndings x).lines = s.lines := rfl
@[simp] theorem withEndings_channels (x : List (List EndClaim)) :
    (s.withEndings x).channels = s.channels := rfl
@[simp] theorem withEndings_sampler (x : List (List EndClaim)) :
    (s.withEndings x).sampler = s.sampler := rfl
@[simp] theorem withEndings_triggers (x : List (List EndClaim)) :
    (s.withEndings x).triggers = s.triggers := rfl
@[simp] theorem withEndings_stamps (x : List (List EndClaim)) :
    (s.withEndings x).stamps = s.stamps := rfl
@[simp] theorem withEndings_stream (x : List (List EndClaim)) :
    (s.withEndings x).stream = s.stream := rfl
@[simp] theorem withEndings_notices (x : List (List EndClaim)) :
    (s.withEndings x).notices = s.notices := rfl
@[simp] theorem withEndings_cmd (x : List (List EndClaim)) : (s.withEndings x).cmd = s.cmd := rfl
@[simp] theorem withEndings_rx (x : List (List EndClaim)) : (s.withEndings x).rx = s.rx := rfl
@[simp] theorem withEndings_tx (x : List (List EndClaim)) : (s.withEndings x).tx = s.tx := rfl
@[simp] theorem withEndings_rate (x : List (List EndClaim)) : (s.withEndings x).rate = s.rate := rfl
@[simp] theorem withEndings_pins (x : List (List EndClaim)) : (s.withEndings x).pins = s.pins := rfl
@[simp] theorem withEndings_now (x : List (List EndClaim)) : (s.withEndings x).now = s.now := rfl
@[simp] theorem withEndings_handed (x : List (List EndClaim)) :
    (s.withEndings x).handed = s.handed := rfl
@[simp] theorem withEndings_offered (x : List (List EndClaim)) :
    (s.withEndings x).offered = s.offered := rfl
@[simp] theorem withEndings_removals (x : List (List EndClaim)) :
    (s.withEndings x).removals = s.removals := rfl
@[simp] theorem withEndings_endings (x : List (List EndClaim)) :
    (s.withEndings x).endings = x := rfl
@[simp] theorem withEndings_pending (x : List (List EndClaim)) :
    (s.withEndings x).pending = s.pending := rfl
@[simp] theorem withEndings_twice (x y : List (List EndClaim)) :
    (s.withEndings x).withEndings y = s.withEndings y := rfl
@[simp] theorem withEndings_self : s.withEndings s.endings = s := rfl

/-! ## withPending -/

@[simp] theorem withPending_time (x : List Instr) : (s.withPending x).time = s.time := rfl
@[simp] theorem withPending_table (x : List Instr) : (s.withPending x).table = s.table := rfl
@[simp] theorem withPending_lines (x : List Instr) : (s.withPending x).lines = s.lines := rfl
@[simp] theorem withPending_channels (x : List Instr) :
    (s.withPending x).channels = s.channels := rfl
@[simp] theorem withPending_sampler (x : List Instr) : (s.withPending x).sampler = s.sampler := rfl
@[simp] theorem withPending_triggers (x : List Instr) :
    (s.withPending x).triggers = s.triggers := rfl
@[simp] theorem withPending_stamps (x : List Instr) : (s.withPending x).stamps = s.stamps := rfl
@[simp] theorem withPending_stream (x : List Instr) : (s.withPending x).stream = s.stream := rfl
@[simp] theorem withPending_notices (x : List Instr) : (s.withPending x).notices = s.notices := rfl
@[simp] theorem withPending_cmd (x : List Instr) : (s.withPending x).cmd = s.cmd := rfl
@[simp] theorem withPending_rx (x : List Instr) : (s.withPending x).rx = s.rx := rfl
@[simp] theorem withPending_tx (x : List Instr) : (s.withPending x).tx = s.tx := rfl
@[simp] theorem withPending_rate (x : List Instr) : (s.withPending x).rate = s.rate := rfl
@[simp] theorem withPending_pins (x : List Instr) : (s.withPending x).pins = s.pins := rfl
@[simp] theorem withPending_now (x : List Instr) : (s.withPending x).now = s.now := rfl
@[simp] theorem withPending_handed (x : List Instr) : (s.withPending x).handed = s.handed := rfl
@[simp] theorem withPending_offered (x : List Instr) : (s.withPending x).offered = s.offered := rfl
@[simp] theorem withPending_removals (x : List Instr) :
    (s.withPending x).removals = s.removals := rfl
@[simp] theorem withPending_endings (x : List Instr) : (s.withPending x).endings = s.endings := rfl
@[simp] theorem withPending_pending (x : List Instr) : (s.withPending x).pending = x := rfl
@[simp] theorem withPending_twice (x y : List Instr) :
    (s.withPending x).withPending y = s.withPending y := rfl
@[simp] theorem withPending_self : s.withPending s.pending = s := rfl

end Sys2Proof.Machine
end

