-- ==== Sys2Proof/Laws/Frames.lean ====
section
/-! SUPPORT. What each operation leaves alone: one lemma per operation, naming every field of the state
that it does not touch. simp takes each conjunct as a rewriting rule. -/

namespace Sys2Proof.Machine

/-! ## Notices and replies -/

@[simp] theorem offerNotice_keeps (b : NoticeBody) (t : Time) (l : Option Label) (s : State) :
    (offerNotice b t l s).time = s.time ∧ (offerNotice b t l s).table = s.table ∧ (offerNotice b
    t l s).lines = s.lines ∧ (offerNotice b t l s).channels = s.channels ∧ (offerNotice b t l
    s).sampler = s.sampler ∧ (offerNotice b t l s).triggers = s.triggers ∧ (offerNotice b t l
    s).stamps = s.stamps ∧ (offerNotice b t l s).stream = s.stream ∧ (offerNotice b t l
    s).notices = s.notices ∧ (offerNotice b t l s).cmd = s.cmd ∧ (offerNotice b t l s).rx = s.rx
    ∧ (offerNotice b t l s).tx = s.tx ∧ (offerNotice b t l s).rate = s.rate ∧ (offerNotice b t l
    s).pins = s.pins ∧ (offerNotice b t l s).now = s.now ∧ (offerNotice b t l s).handed =
    s.handed ∧ (offerNotice b t l s).removals = s.removals ∧ (offerNotice b t l s).endings =
    s.endings ∧ (offerNotice b t l s).pending = s.pending := by
  simp [offerNotice]

@[simp] theorem admitNotice_keeps (o : NoticeOffer) (s : State) :
    (admitNotice o s).time = s.time ∧ (admitNotice o s).table = s.table ∧ (admitNotice o
    s).lines = s.lines ∧ (admitNotice o s).channels = s.channels ∧ (admitNotice o s).sampler =
    s.sampler ∧ (admitNotice o s).triggers = s.triggers ∧ (admitNotice o s).stamps = s.stamps ∧
    (admitNotice o s).stream = s.stream ∧ (admitNotice o s).cmd = s.cmd ∧ (admitNotice o s).rx =
    s.rx ∧ (admitNotice o s).rate = s.rate ∧ (admitNotice o s).pins = s.pins ∧ (admitNotice o
    s).now = s.now ∧ (admitNotice o s).handed = s.handed ∧ (admitNotice o s).offered = s.offered
    ∧ (admitNotice o s).removals = s.removals ∧ (admitNotice o s).endings = s.endings ∧
    (admitNotice o s).pending = s.pending := by
  simp only [admitNotice]; split <;> simp

@[simp] theorem admitAll_keeps (l : List NoticeOffer) (s : State) :
    (admitAll l s).time = s.time ∧ (admitAll l s).table = s.table ∧ (admitAll l s).lines =
    s.lines ∧ (admitAll l s).channels = s.channels ∧ (admitAll l s).sampler = s.sampler ∧
    (admitAll l s).triggers = s.triggers ∧ (admitAll l s).stamps = s.stamps ∧ (admitAll l
    s).stream = s.stream ∧ (admitAll l s).cmd = s.cmd ∧ (admitAll l s).rx = s.rx ∧ (admitAll l
    s).rate = s.rate ∧ (admitAll l s).pins = s.pins ∧ (admitAll l s).now = s.now ∧ (admitAll l
    s).handed = s.handed ∧ (admitAll l s).offered = s.offered ∧ (admitAll l s).removals =
    s.removals ∧ (admitAll l s).endings = s.endings ∧ (admitAll l s).pending = s.pending := by
  induction l generalizing s with
  | nil => simp [admitAll]
  | cons a l ih => simp [admitAll, ih]

@[simp] theorem takeOffers_keeps (s : State) :
    (takeOffers s).time = s.time ∧ (takeOffers s).table = s.table ∧ (takeOffers s).lines =
    s.lines ∧ (takeOffers s).channels = s.channels ∧ (takeOffers s).sampler = s.sampler ∧
    (takeOffers s).triggers = s.triggers ∧ (takeOffers s).stamps = s.stamps ∧ (takeOffers
    s).stream = s.stream ∧ (takeOffers s).cmd = s.cmd ∧ (takeOffers s).rx = s.rx ∧ (takeOffers
    s).rate = s.rate ∧ (takeOffers s).pins = s.pins ∧ (takeOffers s).now = s.now ∧ (takeOffers
    s).handed = s.handed ∧ (takeOffers s).removals = s.removals ∧ (takeOffers s).endings =
    s.endings ∧ (takeOffers s).pending = s.pending := by
  simp [takeOffers]

@[simp] theorem takeNextOffer_keeps (b : NoticeBlock) (s : State) :
    (takeNextOffer b s).time = s.time ∧ (takeNextOffer b s).table = s.table ∧ (takeNextOffer b
    s).lines = s.lines ∧ (takeNextOffer b s).channels = s.channels ∧ (takeNextOffer b s).sampler
    = s.sampler ∧ (takeNextOffer b s).triggers = s.triggers ∧ (takeNextOffer b s).stamps =
    s.stamps ∧ (takeNextOffer b s).stream = s.stream ∧ (takeNextOffer b s).cmd = s.cmd ∧
    (takeNextOffer b s).rx = s.rx ∧ (takeNextOffer b s).rate = s.rate ∧ (takeNextOffer b s).pins
    = s.pins ∧ (takeNextOffer b s).now = s.now ∧ (takeNextOffer b s).handed = s.handed ∧
    (takeNextOffer b s).removals = s.removals ∧ (takeNextOffer b s).endings = s.endings ∧
    (takeNextOffer b s).pending = s.pending := by
  simp only [takeNextOffer]; split <;> simp

@[simp] theorem fillSlot_keeps (i : Fin 16) (r : Reply) (s : State) :
    (fillSlot i r s).time = s.time ∧ (fillSlot i r s).table = s.table ∧ (fillSlot i r s).lines =
    s.lines ∧ (fillSlot i r s).channels = s.channels ∧ (fillSlot i r s).sampler = s.sampler ∧
    (fillSlot i r s).triggers = s.triggers ∧ (fillSlot i r s).stamps = s.stamps ∧ (fillSlot i r
    s).stream = s.stream ∧ (fillSlot i r s).notices = s.notices ∧ (fillSlot i r s).rx = s.rx ∧
    (fillSlot i r s).rate = s.rate ∧ (fillSlot i r s).pins = s.pins ∧ (fillSlot i r s).now =
    s.now ∧ (fillSlot i r s).handed = s.handed ∧ (fillSlot i r s).offered = s.offered ∧
    (fillSlot i r s).removals = s.removals ∧ (fillSlot i r s).endings = s.endings ∧ (fillSlot i
    r s).pending = s.pending := by
  simp [fillSlot]

@[simp] theorem setProgress_keeps (p : Progress) (s : State) :
    (setProgress p s).time = s.time ∧ (setProgress p s).table = s.table ∧ (setProgress p
    s).lines = s.lines ∧ (setProgress p s).channels = s.channels ∧ (setProgress p s).sampler =
    s.sampler ∧ (setProgress p s).triggers = s.triggers ∧ (setProgress p s).stamps = s.stamps ∧
    (setProgress p s).stream = s.stream ∧ (setProgress p s).notices = s.notices ∧ (setProgress p
    s).rx = s.rx ∧ (setProgress p s).tx = s.tx ∧ (setProgress p s).rate = s.rate ∧ (setProgress
    p s).pins = s.pins ∧ (setProgress p s).now = s.now ∧ (setProgress p s).handed = s.handed ∧
    (setProgress p s).offered = s.offered ∧ (setProgress p s).removals = s.removals ∧
    (setProgress p s).endings = s.endings ∧ (setProgress p s).pending = s.pending := by
  simp [setProgress]

@[simp] theorem answer_keeps (c : QueuedCommand) (st : Status) (f : Payload) (s : State) :
    (answer c st f s).time = s.time ∧ (answer c st f s).table = s.table ∧ (answer c st f
    s).lines = s.lines ∧ (answer c st f s).channels = s.channels ∧ (answer c st f s).sampler =
    s.sampler ∧ (answer c st f s).triggers = s.triggers ∧ (answer c st f s).stamps = s.stamps ∧
    (answer c st f s).stream = s.stream ∧ (answer c st f s).notices = s.notices ∧ (answer c st f
    s).rx = s.rx ∧ (answer c st f s).tx = s.tx ∧ (answer c st f s).rate = s.rate ∧ (answer c st
    f s).pins = s.pins ∧ (answer c st f s).now = s.now ∧ (answer c st f s).handed = s.handed ∧
    (answer c st f s).offered = s.offered ∧ (answer c st f s).removals = s.removals ∧ (answer c
    st f s).endings = s.endings ∧ (answer c st f s).pending = s.pending := by
  simp [answer]

@[simp] theorem answerEntries_keeps (st : Status) (f : Payload) (l : List AwaitEntry) (s : State) :
    (answerEntries st f l s).time = s.time ∧ (answerEntries st f l s).table = s.table ∧
    (answerEntries st f l s).lines = s.lines ∧ (answerEntries st f l s).channels = s.channels ∧
    (answerEntries st f l s).sampler = s.sampler ∧ (answerEntries st f l s).triggers =
    s.triggers ∧ (answerEntries st f l s).stamps = s.stamps ∧ (answerEntries st f l s).stream =
    s.stream ∧ (answerEntries st f l s).notices = s.notices ∧ (answerEntries st f l s).rx = s.rx
    ∧ (answerEntries st f l s).rate = s.rate ∧ (answerEntries st f l s).pins = s.pins ∧
    (answerEntries st f l s).now = s.now ∧ (answerEntries st f l s).handed = s.handed ∧
    (answerEntries st f l s).offered = s.offered ∧ (answerEntries st f l s).removals =
    s.removals ∧ (answerEntries st f l s).endings = s.endings ∧ (answerEntries st f l s).pending
    = s.pending := by
  induction l generalizing s with
  | nil => simp [answerEntries]
  | cons a l ih => simp [answerEntries, ih]

@[simp] theorem answerAwaits_keeps (h : Handle) (e : EndReason) (s : State) :
    (answerAwaits h e s).time = s.time ∧ (answerAwaits h e s).table = s.table ∧ (answerAwaits h
    e s).lines = s.lines ∧ (answerAwaits h e s).channels = s.channels ∧ (answerAwaits h e
    s).sampler = s.sampler ∧ (answerAwaits h e s).triggers = s.triggers ∧ (answerAwaits h e
    s).stamps = s.stamps ∧ (answerAwaits h e s).stream = s.stream ∧ (answerAwaits h e s).notices
    = s.notices ∧ (answerAwaits h e s).rx = s.rx ∧ (answerAwaits h e s).rate = s.rate ∧
    (answerAwaits h e s).pins = s.pins ∧ (answerAwaits h e s).now = s.now ∧ (answerAwaits h e
    s).handed = s.handed ∧ (answerAwaits h e s).offered = s.offered ∧ (answerAwaits h e
    s).removals = s.removals ∧ (answerAwaits h e s).endings = s.endings ∧ (answerAwaits h e
    s).pending = s.pending := by
  simp [answerAwaits]

@[simp] theorem reportToAwaits_keeps (h : Handle) (e : EndReason) (s : State) :
    (reportToAwaits h e s).time = s.time ∧ (reportToAwaits h e s).table = s.table ∧
    (reportToAwaits h e s).lines = s.lines ∧ (reportToAwaits h e s).channels = s.channels ∧
    (reportToAwaits h e s).sampler = s.sampler ∧ (reportToAwaits h e s).triggers = s.triggers ∧
    (reportToAwaits h e s).stamps = s.stamps ∧ (reportToAwaits h e s).stream = s.stream ∧
    (reportToAwaits h e s).notices = s.notices ∧ (reportToAwaits h e s).cmd = s.cmd ∧
    (reportToAwaits h e s).rx = s.rx ∧ (reportToAwaits h e s).tx = s.tx ∧ (reportToAwaits h e
    s).rate = s.rate ∧ (reportToAwaits h e s).pins = s.pins ∧ (reportToAwaits h e s).now = s.now
    ∧ (reportToAwaits h e s).handed = s.handed ∧ (reportToAwaits h e s).offered = s.offered ∧
    (reportToAwaits h e s).endings = s.endings ∧ (reportToAwaits h e s).pending = s.pending := by
  simp [reportToAwaits]

@[simp] theorem answerReports_keeps (l : List RemovalReport) (s : State) :
    (answerReports l s).time = s.time ∧ (answerReports l s).table = s.table ∧ (answerReports l
    s).lines = s.lines ∧ (answerReports l s).channels = s.channels ∧ (answerReports l s).sampler
    = s.sampler ∧ (answerReports l s).triggers = s.triggers ∧ (answerReports l s).stamps =
    s.stamps ∧ (answerReports l s).stream = s.stream ∧ (answerReports l s).notices = s.notices ∧
    (answerReports l s).rx = s.rx ∧ (answerReports l s).rate = s.rate ∧ (answerReports l s).pins
    = s.pins ∧ (answerReports l s).now = s.now ∧ (answerReports l s).handed = s.handed ∧
    (answerReports l s).offered = s.offered ∧ (answerReports l s).removals = s.removals ∧
    (answerReports l s).endings = s.endings ∧ (answerReports l s).pending = s.pending := by
  induction l generalizing s with
  | nil => simp [answerReports]
  | cons a l ih => simp [answerReports, ih]

@[simp] theorem takeRemovals_keeps (s : State) :
    (takeRemovals s).time = s.time ∧ (takeRemovals s).table = s.table ∧ (takeRemovals s).lines =
    s.lines ∧ (takeRemovals s).channels = s.channels ∧ (takeRemovals s).sampler = s.sampler ∧
    (takeRemovals s).triggers = s.triggers ∧ (takeRemovals s).stamps = s.stamps ∧ (takeRemovals
    s).stream = s.stream ∧ (takeRemovals s).notices = s.notices ∧ (takeRemovals s).rx = s.rx ∧
    (takeRemovals s).rate = s.rate ∧ (takeRemovals s).pins = s.pins ∧ (takeRemovals s).now =
    s.now ∧ (takeRemovals s).handed = s.handed ∧ (takeRemovals s).offered = s.offered ∧
    (takeRemovals s).endings = s.endings ∧ (takeRemovals s).pending = s.pending := by
  simp [takeRemovals]

@[simp] theorem takeRemoval_keeps (s : State) :
    (takeRemoval s).time = s.time ∧ (takeRemoval s).table = s.table ∧ (takeRemoval s).lines =
    s.lines ∧ (takeRemoval s).channels = s.channels ∧ (takeRemoval s).sampler = s.sampler ∧
    (takeRemoval s).triggers = s.triggers ∧ (takeRemoval s).stamps = s.stamps ∧ (takeRemoval
    s).stream = s.stream ∧ (takeRemoval s).notices = s.notices ∧ (takeRemoval s).rx = s.rx ∧
    (takeRemoval s).rate = s.rate ∧ (takeRemoval s).pins = s.pins ∧ (takeRemoval s).now = s.now
    ∧ (takeRemoval s).handed = s.handed ∧ (takeRemoval s).offered = s.offered ∧ (takeRemoval
    s).endings = s.endings ∧ (takeRemoval s).pending = s.pending := by
  simp only [takeRemoval]; split <;> simp

@[simp] theorem fillMade_keeps (s : State) :
    (fillMade s).time = s.time ∧ (fillMade s).table = s.table ∧ (fillMade s).lines = s.lines ∧
    (fillMade s).channels = s.channels ∧ (fillMade s).sampler = s.sampler ∧ (fillMade
    s).triggers = s.triggers ∧ (fillMade s).stamps = s.stamps ∧ (fillMade s).stream = s.stream ∧
    (fillMade s).notices = s.notices ∧ (fillMade s).rx = s.rx ∧ (fillMade s).rate = s.rate ∧
    (fillMade s).pins = s.pins ∧ (fillMade s).now = s.now ∧ (fillMade s).handed = s.handed ∧
    (fillMade s).offered = s.offered ∧ (fillMade s).endings = s.endings ∧ (fillMade s).pending =
    s.pending := by
  simp only [fillMade]; split <;> simp

@[simp] theorem goOn_keeps (go : Extent) (s : State) :
    (goOn go s).time = s.time ∧ (goOn go s).table = s.table ∧ (goOn go s).lines = s.lines ∧
    (goOn go s).channels = s.channels ∧ (goOn go s).sampler = s.sampler ∧ (goOn go s).triggers =
    s.triggers ∧ (goOn go s).stamps = s.stamps ∧ (goOn go s).stream = s.stream ∧ (goOn go
    s).notices = s.notices ∧ (goOn go s).rx = s.rx ∧ (goOn go s).rate = s.rate ∧ (goOn go
    s).pins = s.pins ∧ (goOn go s).now = s.now ∧ (goOn go s).handed = s.handed ∧ (goOn go
    s).offered = s.offered ∧ (goOn go s).endings = s.endings ∧ (goOn go s).pending = s.pending := by
  cases go <;> simp [goOn]

/-! ## The report stream and the boundary -/

@[simp] theorem tellIfEligible_keeps (s : State) :
    (tellIfEligible s).time = s.time ∧ (tellIfEligible s).table = s.table ∧ (tellIfEligible
    s).lines = s.lines ∧ (tellIfEligible s).channels = s.channels ∧ (tellIfEligible s).sampler =
    s.sampler ∧ (tellIfEligible s).triggers = s.triggers ∧ (tellIfEligible s).stamps = s.stamps
    ∧ (tellIfEligible s).stream = s.stream ∧ (tellIfEligible s).notices = s.notices ∧
    (tellIfEligible s).cmd = s.cmd ∧ (tellIfEligible s).rx = s.rx ∧ (tellIfEligible s).rate =
    s.rate ∧ (tellIfEligible s).pins = s.pins ∧ (tellIfEligible s).now = s.now ∧ (tellIfEligible
    s).handed = s.handed ∧ (tellIfEligible s).offered = s.offered ∧ (tellIfEligible s).removals
    = s.removals ∧ (tellIfEligible s).endings = s.endings ∧ (tellIfEligible s).pending =
    s.pending := by
  simp only [tellIfEligible]; split <;> simp

@[simp] theorem formReport_keeps (s : State) :
    (formReport s).time = s.time ∧ (formReport s).table = s.table ∧ (formReport s).lines =
    s.lines ∧ (formReport s).channels = s.channels ∧ (formReport s).sampler = s.sampler ∧
    (formReport s).triggers = s.triggers ∧ (formReport s).notices = s.notices ∧ (formReport
    s).cmd = s.cmd ∧ (formReport s).rx = s.rx ∧ (formReport s).tx = s.tx ∧ (formReport s).rate =
    s.rate ∧ (formReport s).pins = s.pins ∧ (formReport s).now = s.now ∧ (formReport s).handed =
    s.handed ∧ (formReport s).offered = s.offered ∧ (formReport s).removals = s.removals ∧
    (formReport s).endings = s.endings ∧ (formReport s).pending = s.pending := by
  simp [formReport]

@[simp] theorem revertStream_keeps (e : StreamState) (s : State) :
    (revertStream e s).time = s.time ∧ (revertStream e s).table = s.table ∧ (revertStream e
    s).lines = s.lines ∧ (revertStream e s).channels = s.channels ∧ (revertStream e s).sampler =
    s.sampler ∧ (revertStream e s).triggers = s.triggers ∧ (revertStream e s).notices =
    s.notices ∧ (revertStream e s).cmd = s.cmd ∧ (revertStream e s).rx = s.rx ∧ (revertStream e
    s).tx = s.tx ∧ (revertStream e s).rate = s.rate ∧ (revertStream e s).pins = s.pins ∧
    (revertStream e s).now = s.now ∧ (revertStream e s).handed = s.handed ∧ (revertStream e
    s).offered = s.offered ∧ (revertStream e s).removals = s.removals ∧ (revertStream e
    s).endings = s.endings ∧ (revertStream e s).pending = s.pending := by
  simp [revertStream]

@[simp] theorem beginFrame_keeps (src : FrameSource) (f : Frame) (s : State) :
    (beginFrame src f s).time = s.time ∧ (beginFrame src f s).table = s.table ∧ (beginFrame src
    f s).lines = s.lines ∧ (beginFrame src f s).channels = s.channels ∧ (beginFrame src f
    s).sampler = s.sampler ∧ (beginFrame src f s).triggers = s.triggers ∧ (beginFrame src f
    s).stamps = s.stamps ∧ (beginFrame src f s).stream = s.stream ∧ (beginFrame src f s).notices
    = s.notices ∧ (beginFrame src f s).cmd = s.cmd ∧ (beginFrame src f s).rx = s.rx ∧
    (beginFrame src f s).rate = s.rate ∧ (beginFrame src f s).pins = s.pins ∧ (beginFrame src f
    s).now = s.now ∧ (beginFrame src f s).handed = s.handed ∧ (beginFrame src f s).offered =
    s.offered ∧ (beginFrame src f s).removals = s.removals ∧ (beginFrame src f s).endings =
    s.endings ∧ (beginFrame src f s).pending = s.pending := by
  simp [beginFrame]

@[simp] theorem idleTx_keeps (s : State) :
    (idleTx s).time = s.time ∧ (idleTx s).table = s.table ∧ (idleTx s).lines = s.lines ∧ (idleTx
    s).channels = s.channels ∧ (idleTx s).sampler = s.sampler ∧ (idleTx s).triggers = s.triggers
    ∧ (idleTx s).stamps = s.stamps ∧ (idleTx s).stream = s.stream ∧ (idleTx s).notices =
    s.notices ∧ (idleTx s).cmd = s.cmd ∧ (idleTx s).rx = s.rx ∧ (idleTx s).rate = s.rate ∧
    (idleTx s).pins = s.pins ∧ (idleTx s).now = s.now ∧ (idleTx s).handed = s.handed ∧ (idleTx
    s).offered = s.offered ∧ (idleTx s).removals = s.removals ∧ (idleTx s).endings = s.endings ∧
    (idleTx s).pending = s.pending := by
  simp [idleTx]

@[simp] theorem askNoticeOrReport_keeps (s : State) :
    (askNoticeOrReport s).time = s.time ∧ (askNoticeOrReport s).table = s.table ∧
    (askNoticeOrReport s).lines = s.lines ∧ (askNoticeOrReport s).channels = s.channels ∧
    (askNoticeOrReport s).sampler = s.sampler ∧ (askNoticeOrReport s).triggers = s.triggers ∧
    (askNoticeOrReport s).cmd = s.cmd ∧ (askNoticeOrReport s).rx = s.rx ∧ (askNoticeOrReport
    s).rate = s.rate ∧ (askNoticeOrReport s).pins = s.pins ∧ (askNoticeOrReport s).now = s.now ∧
    (askNoticeOrReport s).handed = s.handed ∧ (askNoticeOrReport s).offered = s.offered ∧
    (askNoticeOrReport s).removals = s.removals ∧ (askNoticeOrReport s).endings = s.endings ∧
    (askNoticeOrReport s).pending = s.pending := by
  simp only [askNoticeOrReport]; split
  · simp
  · split
    · simp
    · split <;> simp

@[simp] theorem boundary_keeps (s : State) :
    (boundary s).time = s.time ∧ (boundary s).table = s.table ∧ (boundary s).lines = s.lines ∧
    (boundary s).channels = s.channels ∧ (boundary s).sampler = s.sampler ∧ (boundary
    s).triggers = s.triggers ∧ (boundary s).rx = s.rx ∧ (boundary s).rate = s.rate ∧ (boundary
    s).pins = s.pins ∧ (boundary s).now = s.now ∧ (boundary s).handed = s.handed ∧ (boundary
    s).offered = s.offered ∧ (boundary s).removals = s.removals ∧ (boundary s).endings =
    s.endings ∧ (boundary s).pending = s.pending := by
  simp only [boundary]; split
  · split <;> simp
  · split <;> simp

@[simp] theorem answerTelling_keeps (s : State) :
    (answerTelling s).time = s.time ∧ (answerTelling s).table = s.table ∧ (answerTelling
    s).lines = s.lines ∧ (answerTelling s).channels = s.channels ∧ (answerTelling s).sampler =
    s.sampler ∧ (answerTelling s).triggers = s.triggers ∧ (answerTelling s).rx = s.rx ∧
    (answerTelling s).rate = s.rate ∧ (answerTelling s).pins = s.pins ∧ (answerTelling s).now =
    s.now ∧ (answerTelling s).handed = s.handed ∧ (answerTelling s).offered = s.offered ∧
    (answerTelling s).removals = s.removals ∧ (answerTelling s).endings = s.endings ∧
    (answerTelling s).pending = s.pending := by
  simp only [answerTelling]; split <;> simp

@[simp] theorem takeEndClaim_keeps (c : EndClaim) (s : State) :
    (takeEndClaim c s).time = s.time ∧ (takeEndClaim c s).table = s.table ∧ (takeEndClaim c
    s).lines = s.lines ∧ (takeEndClaim c s).channels = s.channels ∧ (takeEndClaim c s).sampler =
    s.sampler ∧ (takeEndClaim c s).triggers = s.triggers ∧ (takeEndClaim c s).rx = s.rx ∧
    (takeEndClaim c s).rate = s.rate ∧ (takeEndClaim c s).pins = s.pins ∧ (takeEndClaim c s).now
    = s.now ∧ (takeEndClaim c s).handed = s.handed ∧ (takeEndClaim c s).endings = s.endings ∧
    (takeEndClaim c s).pending = s.pending := by
  cases c <;> simp [takeEndClaim]

@[simp] theorem takeEndClaims_keeps (l : List EndClaim) (s : State) :
    (takeEndClaims l s).time = s.time ∧ (takeEndClaims l s).table = s.table ∧ (takeEndClaims l
    s).lines = s.lines ∧ (takeEndClaims l s).channels = s.channels ∧ (takeEndClaims l s).sampler
    = s.sampler ∧ (takeEndClaims l s).triggers = s.triggers ∧ (takeEndClaims l s).rx = s.rx ∧
    (takeEndClaims l s).rate = s.rate ∧ (takeEndClaims l s).pins = s.pins ∧ (takeEndClaims l
    s).now = s.now ∧ (takeEndClaims l s).handed = s.handed ∧ (takeEndClaims l s).endings =
    s.endings ∧ (takeEndClaims l s).pending = s.pending := by
  induction l generalizing s with
  | nil => simp [takeEndClaims]
  | cons a l ih => simp [takeEndClaims, ih]

@[simp] theorem dropTelling_keeps (s : State) :
    (dropTelling s).time = s.time ∧ (dropTelling s).table = s.table ∧ (dropTelling s).lines =
    s.lines ∧ (dropTelling s).channels = s.channels ∧ (dropTelling s).sampler = s.sampler ∧
    (dropTelling s).triggers = s.triggers ∧ (dropTelling s).stamps = s.stamps ∧ (dropTelling
    s).stream = s.stream ∧ (dropTelling s).notices = s.notices ∧ (dropTelling s).cmd = s.cmd ∧
    (dropTelling s).rx = s.rx ∧ (dropTelling s).rate = s.rate ∧ (dropTelling s).pins = s.pins ∧
    (dropTelling s).now = s.now ∧ (dropTelling s).handed = s.handed ∧ (dropTelling s).offered =
    s.offered ∧ (dropTelling s).removals = s.removals ∧ (dropTelling s).endings = s.endings ∧
    (dropTelling s).pending = s.pending := by
  simp only [dropTelling]; split <;> simp

@[simp] theorem settle_keeps (s : State) :
    (settle s).time = s.time ∧ (settle s).table = s.table ∧ (settle s).lines = s.lines ∧ (settle
    s).channels = s.channels ∧ (settle s).sampler = s.sampler ∧ (settle s).triggers = s.triggers
    ∧ (settle s).rx = s.rx ∧ (settle s).rate = s.rate ∧ (settle s).pins = s.pins ∧ (settle
    s).now = s.now ∧ (settle s).handed = s.handed ∧ (settle s).pending = s.pending := by
  simp [settle]

@[simp] theorem reach_keeps (m : Moment) (s : State) :
    (reach m s).time = s.time ∧ (reach m s).table = s.table ∧ (reach m s).lines = s.lines ∧
    (reach m s).channels = s.channels ∧ (reach m s).sampler = s.sampler ∧ (reach m s).triggers =
    s.triggers ∧ (reach m s).stamps = s.stamps ∧ (reach m s).stream = s.stream ∧ (reach m
    s).notices = s.notices ∧ (reach m s).cmd = s.cmd ∧ (reach m s).rx = s.rx ∧ (reach m s).tx =
    s.tx ∧ (reach m s).rate = s.rate ∧ (reach m s).pins = s.pins ∧ (reach m s).handed = s.handed
    ∧ (reach m s).offered = s.offered ∧ (reach m s).removals = s.removals ∧ (reach m s).endings
    = s.endings ∧ (reach m s).pending = s.pending := by
  simp [reach]

/-! ## Output lines and the sampler -/

@[simp] theorem setLine_keeps (n : Fin 8) (l : OutputLine) (s : State) :
    (setLine n l s).time = s.time ∧ (setLine n l s).table = s.table ∧ (setLine n l s).channels =
    s.channels ∧ (setLine n l s).sampler = s.sampler ∧ (setLine n l s).triggers = s.triggers ∧
    (setLine n l s).stamps = s.stamps ∧ (setLine n l s).stream = s.stream ∧ (setLine n l
    s).notices = s.notices ∧ (setLine n l s).cmd = s.cmd ∧ (setLine n l s).rx = s.rx ∧ (setLine
    n l s).tx = s.tx ∧ (setLine n l s).rate = s.rate ∧ (setLine n l s).pins = s.pins ∧ (setLine
    n l s).now = s.now ∧ (setLine n l s).handed = s.handed ∧ (setLine n l s).offered = s.offered
    ∧ (setLine n l s).removals = s.removals ∧ (setLine n l s).endings = s.endings ∧ (setLine n l
    s).pending = s.pending := by
  simp [setLine]

@[simp] theorem truncate_keeps (n : Fin 8) (t : Time) (s : State) :
    (truncate n t s).time = s.time ∧ (truncate n t s).table = s.table ∧ (truncate n t
    s).channels = s.channels ∧ (truncate n t s).sampler = s.sampler ∧ (truncate n t s).triggers
    = s.triggers ∧ (truncate n t s).stamps = s.stamps ∧ (truncate n t s).stream = s.stream ∧
    (truncate n t s).notices = s.notices ∧ (truncate n t s).cmd = s.cmd ∧ (truncate n t s).rx =
    s.rx ∧ (truncate n t s).tx = s.tx ∧ (truncate n t s).rate = s.rate ∧ (truncate n t s).pins =
    s.pins ∧ (truncate n t s).now = s.now ∧ (truncate n t s).handed = s.handed ∧ (truncate n t
    s).removals = s.removals ∧ (truncate n t s).endings = s.endings ∧ (truncate n t s).pending =
    s.pending := by
  simp only [truncate]; split
  · simp
  · split <;> simp

@[simp] theorem lineEffect_keeps (n : Fin 8) (e : LineEffect) (t : Time) (s : State) :
    ((lineEffect n e t s).2).time = s.time ∧ ((lineEffect n e t s).2).table = s.table ∧
    ((lineEffect n e t s).2).channels = s.channels ∧ ((lineEffect n e t s).2).sampler =
    s.sampler ∧ ((lineEffect n e t s).2).triggers = s.triggers ∧ ((lineEffect n e t s).2).stamps
    = s.stamps ∧ ((lineEffect n e t s).2).stream = s.stream ∧ ((lineEffect n e t s).2).notices =
    s.notices ∧ ((lineEffect n e t s).2).cmd = s.cmd ∧ ((lineEffect n e t s).2).rx = s.rx ∧
    ((lineEffect n e t s).2).tx = s.tx ∧ ((lineEffect n e t s).2).rate = s.rate ∧ ((lineEffect n
    e t s).2).pins = s.pins ∧ ((lineEffect n e t s).2).now = s.now ∧ ((lineEffect n e t
    s).2).handed = s.handed ∧ ((lineEffect n e t s).2).removals = s.removals ∧ ((lineEffect n e
    t s).2).endings = s.endings ∧ ((lineEffect n e t s).2).pending = s.pending := by
  simp only [lineEffect]; split <;> simp

@[simp] theorem setInput_keeps (i : Fin 4) (x : AnalogInput) (s : State) :
    (setInput i x s).time = s.time ∧ (setInput i x s).table = s.table ∧ (setInput i x s).lines =
    s.lines ∧ (setInput i x s).channels = s.channels ∧ (setInput i x s).triggers = s.triggers ∧
    (setInput i x s).stamps = s.stamps ∧ (setInput i x s).stream = s.stream ∧ (setInput i x
    s).notices = s.notices ∧ (setInput i x s).cmd = s.cmd ∧ (setInput i x s).rx = s.rx ∧
    (setInput i x s).tx = s.tx ∧ (setInput i x s).rate = s.rate ∧ (setInput i x s).pins = s.pins
    ∧ (setInput i x s).now = s.now ∧ (setInput i x s).handed = s.handed ∧ (setInput i x
    s).offered = s.offered ∧ (setInput i x s).removals = s.removals ∧ (setInput i x s).endings =
    s.endings ∧ (setInput i x s).pending = s.pending := by
  simp [setInput]

@[simp] theorem sampleFiring_keeps (i : Fin 4) (t : Time) (l : Option Label) (f : Bool) (s : State) :
    ((sampleFiring i t l f s).2).time = s.time ∧ ((sampleFiring i t l f s).2).table = s.table ∧
    ((sampleFiring i t l f s).2).lines = s.lines ∧ ((sampleFiring i t l f s).2).channels =
    s.channels ∧ ((sampleFiring i t l f s).2).triggers = s.triggers ∧ ((sampleFiring i t l f
    s).2).stamps = s.stamps ∧ ((sampleFiring i t l f s).2).stream = s.stream ∧ ((sampleFiring i
    t l f s).2).notices = s.notices ∧ ((sampleFiring i t l f s).2).cmd = s.cmd ∧ ((sampleFiring
    i t l f s).2).rx = s.rx ∧ ((sampleFiring i t l f s).2).tx = s.tx ∧ ((sampleFiring i t l f
    s).2).rate = s.rate ∧ ((sampleFiring i t l f s).2).pins = s.pins ∧ ((sampleFiring i t l f
    s).2).now = s.now ∧ ((sampleFiring i t l f s).2).handed = s.handed ∧ ((sampleFiring i t l f
    s).2).offered = s.offered ∧ ((sampleFiring i t l f s).2).removals = s.removals ∧
    ((sampleFiring i t l f s).2).endings = s.endings ∧ ((sampleFiring i t l f s).2).pending =
    s.pending := by
  simp only [sampleFiring]; split <;> simp

/-! ## The Action Table -/

@[simp] theorem setTriggerSlot_keeps (k : Fin 16) (x : TriggerSlot) (s : State) :
    (setTriggerSlot k x s).time = s.time ∧ (setTriggerSlot k x s).table = s.table ∧
    (setTriggerSlot k x s).lines = s.lines ∧ (setTriggerSlot k x s).channels = s.channels ∧
    (setTriggerSlot k x s).sampler = s.sampler ∧ (setTriggerSlot k x s).stamps = s.stamps ∧
    (setTriggerSlot k x s).stream = s.stream ∧ (setTriggerSlot k x s).notices = s.notices ∧
    (setTriggerSlot k x s).cmd = s.cmd ∧ (setTriggerSlot k x s).rx = s.rx ∧ (setTriggerSlot k x
    s).tx = s.tx ∧ (setTriggerSlot k x s).rate = s.rate ∧ (setTriggerSlot k x s).pins = s.pins ∧
    (setTriggerSlot k x s).now = s.now ∧ (setTriggerSlot k x s).handed = s.handed ∧
    (setTriggerSlot k x s).offered = s.offered ∧ (setTriggerSlot k x s).removals = s.removals ∧
    (setTriggerSlot k x s).endings = s.endings ∧ (setTriggerSlot k x s).pending = s.pending := by
  simp [setTriggerSlot]

@[simp] theorem reportRemoval_keeps (h : Handle) (o : Origin) (s : State) :
    (reportRemoval h o s).time = s.time ∧ (reportRemoval h o s).table = s.table ∧ (reportRemoval
    h o s).lines = s.lines ∧ (reportRemoval h o s).channels = s.channels ∧ (reportRemoval h o
    s).sampler = s.sampler ∧ (reportRemoval h o s).stamps = s.stamps ∧ (reportRemoval h o
    s).stream = s.stream ∧ (reportRemoval h o s).notices = s.notices ∧ (reportRemoval h o s).cmd
    = s.cmd ∧ (reportRemoval h o s).rx = s.rx ∧ (reportRemoval h o s).tx = s.tx ∧ (reportRemoval
    h o s).rate = s.rate ∧ (reportRemoval h o s).pins = s.pins ∧ (reportRemoval h o s).now =
    s.now ∧ (reportRemoval h o s).handed = s.handed ∧ (reportRemoval h o s).offered = s.offered
    ∧ (reportRemoval h o s).removals = s.removals ∧ (reportRemoval h o s).endings = s.endings ∧
    (reportRemoval h o s).pending = s.pending := by
  cases o <;> simp [reportRemoval]

@[simp] theorem removeRecord_keeps (r : Record) (e : EndReason) (t : Time) (s : State) :
    (removeRecord r e t s).time = s.time ∧ (removeRecord r e t s).lines = s.lines ∧
    (removeRecord r e t s).channels = s.channels ∧ (removeRecord r e t s).sampler = s.sampler ∧
    (removeRecord r e t s).stamps = s.stamps ∧ (removeRecord r e t s).stream = s.stream ∧
    (removeRecord r e t s).notices = s.notices ∧ (removeRecord r e t s).cmd = s.cmd ∧
    (removeRecord r e t s).rx = s.rx ∧ (removeRecord r e t s).tx = s.tx ∧ (removeRecord r e t
    s).rate = s.rate ∧ (removeRecord r e t s).pins = s.pins ∧ (removeRecord r e t s).now = s.now
    ∧ (removeRecord r e t s).handed = s.handed ∧ (removeRecord r e t s).endings = s.endings ∧
    (removeRecord r e t s).pending = s.pending := by
  simp only [removeRecord]; split <;> simp

@[simp] theorem removeRecords_keeps (e : EndReason) (t : Time) (l : List Record) (s : State) :
    (removeRecords e t l s).time = s.time ∧ (removeRecords e t l s).lines = s.lines ∧
    (removeRecords e t l s).channels = s.channels ∧ (removeRecords e t l s).sampler = s.sampler
    ∧ (removeRecords e t l s).stamps = s.stamps ∧ (removeRecords e t l s).stream = s.stream ∧
    (removeRecords e t l s).notices = s.notices ∧ (removeRecords e t l s).cmd = s.cmd ∧
    (removeRecords e t l s).rx = s.rx ∧ (removeRecords e t l s).tx = s.tx ∧ (removeRecords e t l
    s).rate = s.rate ∧ (removeRecords e t l s).pins = s.pins ∧ (removeRecords e t l s).now =
    s.now ∧ (removeRecords e t l s).handed = s.handed ∧ (removeRecords e t l s).endings =
    s.endings ∧ (removeRecords e t l s).pending = s.pending := by
  induction l generalizing s with
  | nil => simp [removeRecords]
  | cons a l ih => simp [removeRecords, ih]

@[simp] theorem admitInto_keeps (k : Fin 64) (b : Template) (d : Time) (f : Bool) (o : Origin) (s : State) :
    ((admitInto k b d f o s).2).time = s.time ∧ ((admitInto k b d f o s).2).lines = s.lines ∧
    ((admitInto k b d f o s).2).channels = s.channels ∧ ((admitInto k b d f o s).2).sampler =
    s.sampler ∧ ((admitInto k b d f o s).2).triggers = s.triggers ∧ ((admitInto k b d f o
    s).2).stamps = s.stamps ∧ ((admitInto k b d f o s).2).stream = s.stream ∧ ((admitInto k b d
    f o s).2).notices = s.notices ∧ ((admitInto k b d f o s).2).cmd = s.cmd ∧ ((admitInto k b d
    f o s).2).rx = s.rx ∧ ((admitInto k b d f o s).2).tx = s.tx ∧ ((admitInto k b d f o
    s).2).rate = s.rate ∧ ((admitInto k b d f o s).2).pins = s.pins ∧ ((admitInto k b d f o
    s).2).now = s.now ∧ ((admitInto k b d f o s).2).handed = s.handed ∧ ((admitInto k b d f o
    s).2).offered = s.offered ∧ ((admitInto k b d f o s).2).removals = s.removals ∧ ((admitInto
    k b d f o s).2).endings = s.endings ∧ ((admitInto k b d f o s).2).pending = s.pending := by
  simp [admitInto]

@[simp] theorem plainAdmission_keeps (b : Template) (d : Time) (o : Origin) (s : State) :
    ((plainAdmission b d o s).2).time = s.time ∧ ((plainAdmission b d o s).2).lines = s.lines ∧
    ((plainAdmission b d o s).2).channels = s.channels ∧ ((plainAdmission b d o s).2).sampler =
    s.sampler ∧ ((plainAdmission b d o s).2).triggers = s.triggers ∧ ((plainAdmission b d o
    s).2).stamps = s.stamps ∧ ((plainAdmission b d o s).2).stream = s.stream ∧ ((plainAdmission
    b d o s).2).notices = s.notices ∧ ((plainAdmission b d o s).2).cmd = s.cmd ∧
    ((plainAdmission b d o s).2).rx = s.rx ∧ ((plainAdmission b d o s).2).tx = s.tx ∧
    ((plainAdmission b d o s).2).rate = s.rate ∧ ((plainAdmission b d o s).2).pins = s.pins ∧
    ((plainAdmission b d o s).2).now = s.now ∧ ((plainAdmission b d o s).2).handed = s.handed ∧
    ((plainAdmission b d o s).2).offered = s.offered ∧ ((plainAdmission b d o s).2).removals =
    s.removals ∧ ((plainAdmission b d o s).2).endings = s.endings ∧ ((plainAdmission b d o
    s).2).pending = s.pending := by
  simp only [plainAdmission]; split
  · simp
  · split
    · simp
    · split <;> simp

@[simp] theorem replaceAdmission_keeps (h : Handle) (b : Template) (d : Time) (o : Origin) (s : State) :
    ((replaceAdmission h b d o s).2).time = s.time ∧ ((replaceAdmission h b d o s).2).lines =
    s.lines ∧ ((replaceAdmission h b d o s).2).channels = s.channels ∧ ((replaceAdmission h b d
    o s).2).sampler = s.sampler ∧ ((replaceAdmission h b d o s).2).stamps = s.stamps ∧
    ((replaceAdmission h b d o s).2).stream = s.stream ∧ ((replaceAdmission h b d o
    s).2).notices = s.notices ∧ ((replaceAdmission h b d o s).2).cmd = s.cmd ∧
    ((replaceAdmission h b d o s).2).rx = s.rx ∧ ((replaceAdmission h b d o s).2).tx = s.tx ∧
    ((replaceAdmission h b d o s).2).rate = s.rate ∧ ((replaceAdmission h b d o s).2).pins =
    s.pins ∧ ((replaceAdmission h b d o s).2).now = s.now ∧ ((replaceAdmission h b d o
    s).2).handed = s.handed ∧ ((replaceAdmission h b d o s).2).endings = s.endings ∧
    ((replaceAdmission h b d o s).2).pending = s.pending := by
  simp only [replaceAdmission]; split
  · simp
  · split
    · simp
    · split <;> simp

/-! ## Source events, firing and the late walk -/

@[simp] theorem setClaim_keeps (c : Option TriggerClaim) (s : State) :
    (setClaim c s).time = s.time ∧ (setClaim c s).table = s.table ∧ (setClaim c s).lines =
    s.lines ∧ (setClaim c s).channels = s.channels ∧ (setClaim c s).sampler = s.sampler ∧
    (setClaim c s).stamps = s.stamps ∧ (setClaim c s).stream = s.stream ∧ (setClaim c s).notices
    = s.notices ∧ (setClaim c s).cmd = s.cmd ∧ (setClaim c s).rx = s.rx ∧ (setClaim c s).tx =
    s.tx ∧ (setClaim c s).rate = s.rate ∧ (setClaim c s).pins = s.pins ∧ (setClaim c s).now =
    s.now ∧ (setClaim c s).handed = s.handed ∧ (setClaim c s).offered = s.offered ∧ (setClaim c
    s).removals = s.removals ∧ (setClaim c s).endings = s.endings ∧ (setClaim c s).pending =
    s.pending := by
  simp [setClaim]

@[simp] theorem countMiss_keeps (k : Fin 16) (s : State) :
    (countMiss k s).time = s.time ∧ (countMiss k s).table = s.table ∧ (countMiss k s).lines =
    s.lines ∧ (countMiss k s).channels = s.channels ∧ (countMiss k s).sampler = s.sampler ∧
    (countMiss k s).stamps = s.stamps ∧ (countMiss k s).stream = s.stream ∧ (countMiss k
    s).notices = s.notices ∧ (countMiss k s).cmd = s.cmd ∧ (countMiss k s).rx = s.rx ∧
    (countMiss k s).tx = s.tx ∧ (countMiss k s).rate = s.rate ∧ (countMiss k s).pins = s.pins ∧
    (countMiss k s).now = s.now ∧ (countMiss k s).handed = s.handed ∧ (countMiss k s).offered =
    s.offered ∧ (countMiss k s).removals = s.removals ∧ (countMiss k s).endings = s.endings ∧
    (countMiss k s).pending = s.pending := by
  simp [countMiss]

@[simp] theorem visitSlots_keeps (e : SourceEvent) (l : List (Fin 16)) (s : State) :
    (visitSlots e l s).time = s.time ∧ (visitSlots e l s).table = s.table ∧ (visitSlots e l
    s).lines = s.lines ∧ (visitSlots e l s).channels = s.channels ∧ (visitSlots e l s).sampler =
    s.sampler ∧ (visitSlots e l s).stamps = s.stamps ∧ (visitSlots e l s).stream = s.stream ∧
    (visitSlots e l s).notices = s.notices ∧ (visitSlots e l s).cmd = s.cmd ∧ (visitSlots e l
    s).rx = s.rx ∧ (visitSlots e l s).tx = s.tx ∧ (visitSlots e l s).rate = s.rate ∧ (visitSlots
    e l s).pins = s.pins ∧ (visitSlots e l s).now = s.now ∧ (visitSlots e l s).handed = s.handed
    ∧ (visitSlots e l s).offered = s.offered ∧ (visitSlots e l s).removals = s.removals ∧
    (visitSlots e l s).endings = s.endings ∧ (visitSlots e l s).pending = s.pending := by
  induction l generalizing s with
  | nil => simp [visitSlots]
  | cons a l ih =>
      simp only [visitSlots]
      repeat' (first | split | simp [ih])

@[simp] theorem takeEvent_keeps (e : SourceEvent) (s : State) :
    (takeEvent e s).time = s.time ∧ (takeEvent e s).table = s.table ∧ (takeEvent e s).lines =
    s.lines ∧ (takeEvent e s).channels = s.channels ∧ (takeEvent e s).sampler = s.sampler ∧
    (takeEvent e s).stamps = s.stamps ∧ (takeEvent e s).stream = s.stream ∧ (takeEvent e
    s).notices = s.notices ∧ (takeEvent e s).cmd = s.cmd ∧ (takeEvent e s).rx = s.rx ∧
    (takeEvent e s).tx = s.tx ∧ (takeEvent e s).rate = s.rate ∧ (takeEvent e s).pins = s.pins ∧
    (takeEvent e s).now = s.now ∧ (takeEvent e s).offered = s.offered ∧ (takeEvent e s).removals
    = s.removals ∧ (takeEvent e s).endings = s.endings ∧ (takeEvent e s).pending = s.pending := by
  simp [takeEvent]

@[simp] theorem takeBlockEvent_keeps (b : EventBlock) (s : State) :
    (takeBlockEvent b s).time = s.time ∧ (takeBlockEvent b s).table = s.table ∧ (takeBlockEvent
    b s).lines = s.lines ∧ (takeBlockEvent b s).channels = s.channels ∧ (takeBlockEvent b
    s).sampler = s.sampler ∧ (takeBlockEvent b s).stamps = s.stamps ∧ (takeBlockEvent b
    s).stream = s.stream ∧ (takeBlockEvent b s).notices = s.notices ∧ (takeBlockEvent b s).cmd =
    s.cmd ∧ (takeBlockEvent b s).rx = s.rx ∧ (takeBlockEvent b s).tx = s.tx ∧ (takeBlockEvent b
    s).rate = s.rate ∧ (takeBlockEvent b s).pins = s.pins ∧ (takeBlockEvent b s).now = s.now ∧
    (takeBlockEvent b s).offered = s.offered ∧ (takeBlockEvent b s).removals = s.removals ∧
    (takeBlockEvent b s).endings = s.endings ∧ (takeBlockEvent b s).pending = s.pending := by
  simp only [takeBlockEvent]; split
  · simp
  · split <;> simp

@[simp] theorem takeBlockEvents_keeps (l : List EventBlock) (s : State) :
    (takeBlockEvents l s).time = s.time ∧ (takeBlockEvents l s).table = s.table ∧
    (takeBlockEvents l s).lines = s.lines ∧ (takeBlockEvents l s).channels = s.channels ∧
    (takeBlockEvents l s).sampler = s.sampler ∧ (takeBlockEvents l s).stamps = s.stamps ∧
    (takeBlockEvents l s).stream = s.stream ∧ (takeBlockEvents l s).notices = s.notices ∧
    (takeBlockEvents l s).cmd = s.cmd ∧ (takeBlockEvents l s).rx = s.rx ∧ (takeBlockEvents l
    s).tx = s.tx ∧ (takeBlockEvents l s).rate = s.rate ∧ (takeBlockEvents l s).pins = s.pins ∧
    (takeBlockEvents l s).now = s.now ∧ (takeBlockEvents l s).offered = s.offered ∧
    (takeBlockEvents l s).removals = s.removals ∧ (takeBlockEvents l s).endings = s.endings ∧
    (takeBlockEvents l s).pending = s.pending := by
  induction l generalizing s with
  | nil => simp [takeBlockEvents]
  | cons a l ih => simp [takeBlockEvents, ih]

@[simp] theorem fireEffect_keeps (r : Record) (t : Time) (s : State) :
    ((fireEffect r t s).2).time = s.time ∧ ((fireEffect r t s).2).table = s.table ∧ ((fireEffect
    r t s).2).channels = s.channels ∧ ((fireEffect r t s).2).triggers = s.triggers ∧
    ((fireEffect r t s).2).stamps = s.stamps ∧ ((fireEffect r t s).2).stream = s.stream ∧
    ((fireEffect r t s).2).notices = s.notices ∧ ((fireEffect r t s).2).cmd = s.cmd ∧
    ((fireEffect r t s).2).rx = s.rx ∧ ((fireEffect r t s).2).tx = s.tx ∧ ((fireEffect r t
    s).2).rate = s.rate ∧ ((fireEffect r t s).2).pins = s.pins ∧ ((fireEffect r t s).2).now =
    s.now ∧ ((fireEffect r t s).2).handed = s.handed ∧ ((fireEffect r t s).2).removals =
    s.removals ∧ ((fireEffect r t s).2).endings = s.endings ∧ ((fireEffect r t s).2).pending =
    s.pending := by
  simp only [fireEffect]; split <;> simp

@[simp] theorem offerEvent_keeps (e : SourceEvent) (s : State) :
    (offerEvent e s).time = s.time ∧ (offerEvent e s).table = s.table ∧ (offerEvent e s).lines =
    s.lines ∧ (offerEvent e s).channels = s.channels ∧ (offerEvent e s).sampler = s.sampler ∧
    (offerEvent e s).triggers = s.triggers ∧ (offerEvent e s).stamps = s.stamps ∧ (offerEvent e
    s).stream = s.stream ∧ (offerEvent e s).notices = s.notices ∧ (offerEvent e s).cmd = s.cmd ∧
    (offerEvent e s).rx = s.rx ∧ (offerEvent e s).tx = s.tx ∧ (offerEvent e s).rate = s.rate ∧
    (offerEvent e s).pins = s.pins ∧ (offerEvent e s).now = s.now ∧ (offerEvent e s).offered =
    s.offered ∧ (offerEvent e s).removals = s.removals ∧ (offerEvent e s).endings = s.endings ∧
    (offerEvent e s).pending = s.pending := by
  simp [offerEvent]

@[simp] theorem offerStamp_keeps (o : StampOffer) (s : State) :
    (offerStamp o s).time = s.time ∧ (offerStamp o s).table = s.table ∧ (offerStamp o s).lines =
    s.lines ∧ (offerStamp o s).channels = s.channels ∧ (offerStamp o s).sampler = s.sampler ∧
    (offerStamp o s).triggers = s.triggers ∧ (offerStamp o s).stamps = s.stamps ∧ (offerStamp o
    s).stream = s.stream ∧ (offerStamp o s).notices = s.notices ∧ (offerStamp o s).cmd = s.cmd ∧
    (offerStamp o s).rx = s.rx ∧ (offerStamp o s).tx = s.tx ∧ (offerStamp o s).rate = s.rate ∧
    (offerStamp o s).pins = s.pins ∧ (offerStamp o s).now = s.now ∧ (offerStamp o s).offered =
    s.offered ∧ (offerStamp o s).removals = s.removals ∧ (offerStamp o s).endings = s.endings ∧
    (offerStamp o s).pending = s.pending := by
  simp [offerStamp]

@[simp] theorem offerLabel_keeps (l : Option Label) (st : FiringStatus) (t : Time) (s : State) :
    (offerLabel l st t s).time = s.time ∧ (offerLabel l st t s).table = s.table ∧ (offerLabel l
    st t s).lines = s.lines ∧ (offerLabel l st t s).channels = s.channels ∧ (offerLabel l st t
    s).sampler = s.sampler ∧ (offerLabel l st t s).triggers = s.triggers ∧ (offerLabel l st t
    s).stamps = s.stamps ∧ (offerLabel l st t s).stream = s.stream ∧ (offerLabel l st t
    s).notices = s.notices ∧ (offerLabel l st t s).cmd = s.cmd ∧ (offerLabel l st t s).rx = s.rx
    ∧ (offerLabel l st t s).tx = s.tx ∧ (offerLabel l st t s).rate = s.rate ∧ (offerLabel l st t
    s).pins = s.pins ∧ (offerLabel l st t s).now = s.now ∧ (offerLabel l st t s).offered =
    s.offered ∧ (offerLabel l st t s).removals = s.removals ∧ (offerLabel l st t s).endings =
    s.endings ∧ (offerLabel l st t s).pending = s.pending := by
  simp only [offerLabel]; split
  · split <;> simp
  · simp

@[simp] theorem settleRecord_keeps (r : Record) (t : Time) (s : State) :
    (settleRecord r t s).time = s.time ∧ (settleRecord r t s).lines = s.lines ∧ (settleRecord r
    t s).channels = s.channels ∧ (settleRecord r t s).sampler = s.sampler ∧ (settleRecord r t
    s).stamps = s.stamps ∧ (settleRecord r t s).stream = s.stream ∧ (settleRecord r t s).notices
    = s.notices ∧ (settleRecord r t s).cmd = s.cmd ∧ (settleRecord r t s).rx = s.rx ∧
    (settleRecord r t s).tx = s.tx ∧ (settleRecord r t s).rate = s.rate ∧ (settleRecord r t
    s).pins = s.pins ∧ (settleRecord r t s).now = s.now ∧ (settleRecord r t s).handed = s.handed
    ∧ (settleRecord r t s).endings = s.endings ∧ (settleRecord r t s).pending = s.pending := by
  simp only [settleRecord]; split
  · simp
  · split
    · simp
    · split <;> simp

@[simp] theorem fireRecord_keeps (v : TakenEvents) (t : Time) (r : Record) (s : State) :
    (fireRecord v t r s).time = s.time ∧ (fireRecord v t r s).channels = s.channels ∧
    (fireRecord v t r s).stamps = s.stamps ∧ (fireRecord v t r s).stream = s.stream ∧
    (fireRecord v t r s).notices = s.notices ∧ (fireRecord v t r s).cmd = s.cmd ∧ (fireRecord v
    t r s).rx = s.rx ∧ (fireRecord v t r s).tx = s.tx ∧ (fireRecord v t r s).rate = s.rate ∧
    (fireRecord v t r s).pins = s.pins ∧ (fireRecord v t r s).now = s.now ∧ (fireRecord v t r
    s).endings = s.endings ∧ (fireRecord v t r s).pending = s.pending := by
  simp only [fireRecord]; split <;> simp

@[simp] theorem fireAll_keeps (t : Time) (l : List Record) (v : List TakenEvents) (s : State) :
    (fireAll t l v s).time = s.time ∧ (fireAll t l v s).channels = s.channels ∧ (fireAll t l v
    s).stamps = s.stamps ∧ (fireAll t l v s).stream = s.stream ∧ (fireAll t l v s).notices =
    s.notices ∧ (fireAll t l v s).cmd = s.cmd ∧ (fireAll t l v s).rx = s.rx ∧ (fireAll t l v
    s).tx = s.tx ∧ (fireAll t l v s).rate = s.rate ∧ (fireAll t l v s).pins = s.pins ∧ (fireAll
    t l v s).now = s.now ∧ (fireAll t l v s).endings = s.endings ∧ (fireAll t l v s).pending =
    s.pending := by
  induction l generalizing v s with
  | nil => simp [fireAll]
  | cons a l ih => simp [fireAll, ih]

@[simp] theorem tick_keeps (v : List TakenEvents) (s : State) :
    (tick v s).channels = s.channels ∧ (tick v s).stamps = s.stamps ∧ (tick v s).stream =
    s.stream ∧ (tick v s).notices = s.notices ∧ (tick v s).cmd = s.cmd ∧ (tick v s).rx = s.rx ∧
    (tick v s).tx = s.tx ∧ (tick v s).rate = s.rate ∧ (tick v s).pins = s.pins ∧ (tick v s).now
    = s.now ∧ (tick v s).endings = s.endings ∧ (tick v s).pending = s.pending := by
  simp only [tick]; split <;> simp

@[simp] theorem readGate_keeps (v : Level) (s : State) :
    (readGate v s).time = s.time ∧ (readGate v s).table = s.table ∧ (readGate v s).lines =
    s.lines ∧ (readGate v s).channels = s.channels ∧ (readGate v s).sampler = s.sampler ∧
    (readGate v s).triggers = s.triggers ∧ (readGate v s).stamps = s.stamps ∧ (readGate v
    s).stream = s.stream ∧ (readGate v s).notices = s.notices ∧ (readGate v s).cmd = s.cmd ∧
    (readGate v s).rx = s.rx ∧ (readGate v s).tx = s.tx ∧ (readGate v s).rate = s.rate ∧
    (readGate v s).now = s.now ∧ (readGate v s).handed = s.handed ∧ (readGate v s).offered =
    s.offered ∧ (readGate v s).removals = s.removals ∧ (readGate v s).endings = s.endings ∧
    (readGate v s).pending = s.pending := by
  simp [readGate]

@[simp] theorem walkRecord_keeps (v : Time) (r : Record) (s : State) :
    (walkRecord v r s).time = s.time ∧ (walkRecord v r s).lines = s.lines ∧ (walkRecord v r
    s).channels = s.channels ∧ (walkRecord v r s).sampler = s.sampler ∧ (walkRecord v r
    s).stamps = s.stamps ∧ (walkRecord v r s).stream = s.stream ∧ (walkRecord v r s).notices =
    s.notices ∧ (walkRecord v r s).cmd = s.cmd ∧ (walkRecord v r s).rx = s.rx ∧ (walkRecord v r
    s).tx = s.tx ∧ (walkRecord v r s).rate = s.rate ∧ (walkRecord v r s).pins = s.pins ∧
    (walkRecord v r s).now = s.now ∧ (walkRecord v r s).handed = s.handed ∧ (walkRecord v r
    s).endings = s.endings ∧ (walkRecord v r s).pending = s.pending := by
  simp only [walkRecord]; split <;> simp

@[simp] theorem walkAll_keeps (v : Time) (l : List Record) (s : State) :
    (walkAll v l s).time = s.time ∧ (walkAll v l s).lines = s.lines ∧ (walkAll v l s).channels =
    s.channels ∧ (walkAll v l s).sampler = s.sampler ∧ (walkAll v l s).stamps = s.stamps ∧
    (walkAll v l s).stream = s.stream ∧ (walkAll v l s).notices = s.notices ∧ (walkAll v l
    s).cmd = s.cmd ∧ (walkAll v l s).rx = s.rx ∧ (walkAll v l s).tx = s.tx ∧ (walkAll v l
    s).rate = s.rate ∧ (walkAll v l s).pins = s.pins ∧ (walkAll v l s).now = s.now ∧ (walkAll v
    l s).handed = s.handed ∧ (walkAll v l s).endings = s.endings ∧ (walkAll v l s).pending =
    s.pending := by
  induction l generalizing s with
  | nil => simp [walkAll]
  | cons a l ih => simp [walkAll, ih]

@[simp] theorem lateWalk_keeps (s : State) :
    (lateWalk s).time = s.time ∧ (lateWalk s).lines = s.lines ∧ (lateWalk s).channels =
    s.channels ∧ (lateWalk s).sampler = s.sampler ∧ (lateWalk s).stamps = s.stamps ∧ (lateWalk
    s).stream = s.stream ∧ (lateWalk s).notices = s.notices ∧ (lateWalk s).cmd = s.cmd ∧
    (lateWalk s).rx = s.rx ∧ (lateWalk s).tx = s.tx ∧ (lateWalk s).rate = s.rate ∧ (lateWalk
    s).pins = s.pins ∧ (lateWalk s).now = s.now ∧ (lateWalk s).handed = s.handed ∧ (lateWalk
    s).endings = s.endings ∧ (lateWalk s).pending = s.pending := by
  simp [lateWalk]

@[simp] theorem takePeriod_keeps (v : List TakenEvents) (s : State) :
    (takePeriod v s).channels = s.channels ∧ (takePeriod v s).stamps = s.stamps ∧ (takePeriod v
    s).stream = s.stream ∧ (takePeriod v s).notices = s.notices ∧ (takePeriod v s).cmd = s.cmd ∧
    (takePeriod v s).rx = s.rx ∧ (takePeriod v s).tx = s.tx ∧ (takePeriod v s).rate = s.rate ∧
    (takePeriod v s).pins = s.pins ∧ (takePeriod v s).now = s.now ∧ (takePeriod v s).endings =
    s.endings ∧ (takePeriod v s).pending = s.pending := by
  simp only [takePeriod]; split
  · simp
  all_goals split <;> simp

/-! ## Acknowledgements and the receive machine -/

@[simp] theorem staleAck_keeps (s : State) :
    (staleAck s).time = s.time ∧ (staleAck s).table = s.table ∧ (staleAck s).lines = s.lines ∧
    (staleAck s).channels = s.channels ∧ (staleAck s).sampler = s.sampler ∧ (staleAck
    s).triggers = s.triggers ∧ (staleAck s).stamps = s.stamps ∧ (staleAck s).notices = s.notices
    ∧ (staleAck s).cmd = s.cmd ∧ (staleAck s).rx = s.rx ∧ (staleAck s).tx = s.tx ∧ (staleAck
    s).rate = s.rate ∧ (staleAck s).pins = s.pins ∧ (staleAck s).now = s.now ∧ (staleAck
    s).handed = s.handed ∧ (staleAck s).offered = s.offered ∧ (staleAck s).removals = s.removals
    ∧ (staleAck s).endings = s.endings ∧ (staleAck s).pending = s.pending := by
  simp [staleAck]

@[simp] theorem takeAck_keeps (n : Byte) (s : State) :
    (takeAck n s).time = s.time ∧ (takeAck n s).table = s.table ∧ (takeAck n s).lines = s.lines
    ∧ (takeAck n s).channels = s.channels ∧ (takeAck n s).sampler = s.sampler ∧ (takeAck n
    s).triggers = s.triggers ∧ (takeAck n s).notices = s.notices ∧ (takeAck n s).cmd = s.cmd ∧
    (takeAck n s).rx = s.rx ∧ (takeAck n s).rate = s.rate ∧ (takeAck n s).pins = s.pins ∧
    (takeAck n s).now = s.now ∧ (takeAck n s).handed = s.handed ∧ (takeAck n s).offered =
    s.offered ∧ (takeAck n s).removals = s.removals ∧ (takeAck n s).endings = s.endings ∧
    (takeAck n s).pending = s.pending := by
  simp only [takeAck]; split
  · simp
  · simp
  · split <;> simp

@[simp] theorem linkError_keeps (k : LinkErrorKind) (s : State) :
    (linkError k s).time = s.time ∧ (linkError k s).table = s.table ∧ (linkError k s).lines =
    s.lines ∧ (linkError k s).channels = s.channels ∧ (linkError k s).sampler = s.sampler ∧
    (linkError k s).triggers = s.triggers ∧ (linkError k s).stamps = s.stamps ∧ (linkError k
    s).stream = s.stream ∧ (linkError k s).notices = s.notices ∧ (linkError k s).cmd = s.cmd ∧
    (linkError k s).tx = s.tx ∧ (linkError k s).rate = s.rate ∧ (linkError k s).pins = s.pins ∧
    (linkError k s).now = s.now ∧ (linkError k s).handed = s.handed ∧ (linkError k s).removals =
    s.removals ∧ (linkError k s).endings = s.endings ∧ (linkError k s).pending = s.pending := by
  simp [linkError]

@[simp] theorem loseFrame_keeps (s : State) :
    (loseFrame s).time = s.time ∧ (loseFrame s).table = s.table ∧ (loseFrame s).lines = s.lines
    ∧ (loseFrame s).channels = s.channels ∧ (loseFrame s).sampler = s.sampler ∧ (loseFrame
    s).triggers = s.triggers ∧ (loseFrame s).stamps = s.stamps ∧ (loseFrame s).stream = s.stream
    ∧ (loseFrame s).notices = s.notices ∧ (loseFrame s).rx = s.rx ∧ (loseFrame s).tx = s.tx ∧
    (loseFrame s).rate = s.rate ∧ (loseFrame s).pins = s.pins ∧ (loseFrame s).now = s.now ∧
    (loseFrame s).handed = s.handed ∧ (loseFrame s).offered = s.offered ∧ (loseFrame s).removals
    = s.removals ∧ (loseFrame s).endings = s.endings ∧ (loseFrame s).pending = s.pending := by
  simp [loseFrame]

@[simp] theorem refuseFrame_keeps (st : Status) (t k : Byte) (s : State) :
    (refuseFrame st t k s).time = s.time ∧ (refuseFrame st t k s).table = s.table ∧ (refuseFrame
    st t k s).lines = s.lines ∧ (refuseFrame st t k s).channels = s.channels ∧ (refuseFrame st t
    k s).sampler = s.sampler ∧ (refuseFrame st t k s).triggers = s.triggers ∧ (refuseFrame st t
    k s).stamps = s.stamps ∧ (refuseFrame st t k s).stream = s.stream ∧ (refuseFrame st t k
    s).notices = s.notices ∧ (refuseFrame st t k s).rx = s.rx ∧ (refuseFrame st t k s).rate =
    s.rate ∧ (refuseFrame st t k s).pins = s.pins ∧ (refuseFrame st t k s).now = s.now ∧
    (refuseFrame st t k s).handed = s.handed ∧ (refuseFrame st t k s).offered = s.offered ∧
    (refuseFrame st t k s).removals = s.removals ∧ (refuseFrame st t k s).endings = s.endings ∧
    (refuseFrame st t k s).pending = s.pending := by
  simp only [refuseFrame]; split <;> simp

@[simp] theorem acceptFrame_keeps (t k : Byte) (p : Payload) (s : State) :
    (acceptFrame t k p s).time = s.time ∧ (acceptFrame t k p s).table = s.table ∧ (acceptFrame t
    k p s).lines = s.lines ∧ (acceptFrame t k p s).channels = s.channels ∧ (acceptFrame t k p
    s).sampler = s.sampler ∧ (acceptFrame t k p s).triggers = s.triggers ∧ (acceptFrame t k p
    s).stamps = s.stamps ∧ (acceptFrame t k p s).stream = s.stream ∧ (acceptFrame t k p
    s).notices = s.notices ∧ (acceptFrame t k p s).rx = s.rx ∧ (acceptFrame t k p s).tx = s.tx ∧
    (acceptFrame t k p s).rate = s.rate ∧ (acceptFrame t k p s).pins = s.pins ∧ (acceptFrame t k
    p s).now = s.now ∧ (acceptFrame t k p s).handed = s.handed ∧ (acceptFrame t k p s).offered =
    s.offered ∧ (acceptFrame t k p s).removals = s.removals ∧ (acceptFrame t k p s).endings =
    s.endings ∧ (acceptFrame t k p s).pending = s.pending := by
  simp only [acceptFrame]; split <;> simp

@[simp] theorem discardTagZero_keeps (s : State) :
    (discardTagZero s).time = s.time ∧ (discardTagZero s).table = s.table ∧ (discardTagZero
    s).lines = s.lines ∧ (discardTagZero s).channels = s.channels ∧ (discardTagZero s).sampler =
    s.sampler ∧ (discardTagZero s).triggers = s.triggers ∧ (discardTagZero s).stamps = s.stamps
    ∧ (discardTagZero s).stream = s.stream ∧ (discardTagZero s).notices = s.notices ∧
    (discardTagZero s).rx = s.rx ∧ (discardTagZero s).tx = s.tx ∧ (discardTagZero s).rate =
    s.rate ∧ (discardTagZero s).pins = s.pins ∧ (discardTagZero s).now = s.now ∧ (discardTagZero
    s).handed = s.handed ∧ (discardTagZero s).removals = s.removals ∧ (discardTagZero s).endings
    = s.endings ∧ (discardTagZero s).pending = s.pending := by
  simp [discardTagZero]

@[simp] theorem sortFrame_keeps (t k : Byte) (p : Payload) (s : State) :
    (sortFrame t k p s).time = s.time ∧ (sortFrame t k p s).table = s.table ∧ (sortFrame t k p
    s).lines = s.lines ∧ (sortFrame t k p s).channels = s.channels ∧ (sortFrame t k p s).sampler
    = s.sampler ∧ (sortFrame t k p s).triggers = s.triggers ∧ (sortFrame t k p s).stamps =
    s.stamps ∧ (sortFrame t k p s).stream = s.stream ∧ (sortFrame t k p s).notices = s.notices ∧
    (sortFrame t k p s).rx = s.rx ∧ (sortFrame t k p s).rate = s.rate ∧ (sortFrame t k p s).pins
    = s.pins ∧ (sortFrame t k p s).now = s.now ∧ (sortFrame t k p s).removals = s.removals ∧
    (sortFrame t k p s).endings = s.endings ∧ (sortFrame t k p s).pending = s.pending := by
  simp only [sortFrame]
  repeat' (first | split | simp)

@[simp] theorem takeByte_keeps (b : Byte) (s : State) :
    (takeByte b s).time = s.time ∧ (takeByte b s).table = s.table ∧ (takeByte b s).lines =
    s.lines ∧ (takeByte b s).channels = s.channels ∧ (takeByte b s).sampler = s.sampler ∧
    (takeByte b s).triggers = s.triggers ∧ (takeByte b s).stamps = s.stamps ∧ (takeByte b
    s).stream = s.stream ∧ (takeByte b s).notices = s.notices ∧ (takeByte b s).rate = s.rate ∧
    (takeByte b s).pins = s.pins ∧ (takeByte b s).now = s.now ∧ (takeByte b s).removals =
    s.removals ∧ (takeByte b s).endings = s.endings ∧ (takeByte b s).pending = s.pending := by
  simp only [takeByte]
  split <;> (try split) <;> simp

@[simp] theorem stopBit_keeps (v : Level) (s : State) :
    (stopBit v s).time = s.time ∧ (stopBit v s).table = s.table ∧ (stopBit v s).lines = s.lines
    ∧ (stopBit v s).channels = s.channels ∧ (stopBit v s).sampler = s.sampler ∧ (stopBit v
    s).triggers = s.triggers ∧ (stopBit v s).stamps = s.stamps ∧ (stopBit v s).stream = s.stream
    ∧ (stopBit v s).notices = s.notices ∧ (stopBit v s).cmd = s.cmd ∧ (stopBit v s).tx = s.tx ∧
    (stopBit v s).rate = s.rate ∧ (stopBit v s).pins = s.pins ∧ (stopBit v s).now = s.now ∧
    (stopBit v s).handed = s.handed ∧ (stopBit v s).offered = s.offered ∧ (stopBit v s).removals
    = s.removals ∧ (stopBit v s).endings = s.endings ∧ (stopBit v s).pending = s.pending := by
  simp [stopBit]

@[simp] theorem takeChar_keeps (c : RxChar) (s : State) :
    (takeChar c s).time = s.time ∧ (takeChar c s).table = s.table ∧ (takeChar c s).lines =
    s.lines ∧ (takeChar c s).channels = s.channels ∧ (takeChar c s).sampler = s.sampler ∧
    (takeChar c s).triggers = s.triggers ∧ (takeChar c s).stamps = s.stamps ∧ (takeChar c
    s).stream = s.stream ∧ (takeChar c s).notices = s.notices ∧ (takeChar c s).rate = s.rate ∧
    (takeChar c s).pins = s.pins ∧ (takeChar c s).now = s.now ∧ (takeChar c s).removals =
    s.removals ∧ (takeChar c s).endings = s.endings ∧ (takeChar c s).pending = s.pending := by
  simp only [takeChar]; split
  · simp
  · split <;> simp

/-! ## The command block -/

@[simp] theorem readOn_keeps (go : Extent) (c : QueuedCommand) (s : State) :
    (readOn go c s).time = s.time ∧ (readOn go c s).table = s.table ∧ (readOn go c s).lines =
    s.lines ∧ (readOn go c s).channels = s.channels ∧ (readOn go c s).sampler = s.sampler ∧
    (readOn go c s).triggers = s.triggers ∧ (readOn go c s).stamps = s.stamps ∧ (readOn go c
    s).stream = s.stream ∧ (readOn go c s).notices = s.notices ∧ (readOn go c s).rx = s.rx ∧
    (readOn go c s).tx = s.tx ∧ (readOn go c s).rate = s.rate ∧ (readOn go c s).pins = s.pins ∧
    (readOn go c s).now = s.now ∧ (readOn go c s).handed = s.handed ∧ (readOn go c s).offered =
    s.offered ∧ (readOn go c s).removals = s.removals ∧ (readOn go c s).endings = s.endings ∧
    (readOn go c s).pending = s.pending := by
  simp only [readOn]; split <;> simp

@[simp] theorem abortCommands_keeps (l : List QueuedCommand) (s : State) :
    (abortCommands l s).time = s.time ∧ (abortCommands l s).table = s.table ∧ (abortCommands l
    s).lines = s.lines ∧ (abortCommands l s).channels = s.channels ∧ (abortCommands l s).sampler
    = s.sampler ∧ (abortCommands l s).triggers = s.triggers ∧ (abortCommands l s).stamps =
    s.stamps ∧ (abortCommands l s).stream = s.stream ∧ (abortCommands l s).notices = s.notices ∧
    (abortCommands l s).rx = s.rx ∧ (abortCommands l s).rate = s.rate ∧ (abortCommands l s).pins
    = s.pins ∧ (abortCommands l s).now = s.now ∧ (abortCommands l s).handed = s.handed ∧
    (abortCommands l s).offered = s.offered ∧ (abortCommands l s).removals = s.removals ∧
    (abortCommands l s).endings = s.endings ∧ (abortCommands l s).pending = s.pending := by
  induction l generalizing s with
  | nil => simp [abortCommands]
  | cons a l ih => simp [abortCommands, ih]

@[simp] theorem beginReset_keeps (c : QueuedCommand) (o : ResetOption) (s : State) :
    (beginReset c o s).time = s.time ∧ (beginReset c o s).table = s.table ∧ (beginReset c o
    s).lines = s.lines ∧ (beginReset c o s).channels = s.channels ∧ (beginReset c o s).sampler =
    s.sampler ∧ (beginReset c o s).triggers = s.triggers ∧ (beginReset c o s).stamps = s.stamps
    ∧ (beginReset c o s).stream = s.stream ∧ (beginReset c o s).notices = s.notices ∧
    (beginReset c o s).rx = s.rx ∧ (beginReset c o s).rate = s.rate ∧ (beginReset c o s).pins =
    s.pins ∧ (beginReset c o s).now = s.now ∧ (beginReset c o s).handed = s.handed ∧ (beginReset
    c o s).offered = s.offered ∧ (beginReset c o s).removals = s.removals ∧ (beginReset c o
    s).endings = s.endings ∧ (beginReset c o s).pending = s.pending := by
  simp [beginReset]

@[simp] theorem placeAwait_keeps (c : QueuedCommand) (h : Handle) (t : BitVec 16) (s : State) :
    (placeAwait c h t s).time = s.time ∧ (placeAwait c h t s).table = s.table ∧ (placeAwait c h
    t s).lines = s.lines ∧ (placeAwait c h t s).channels = s.channels ∧ (placeAwait c h t
    s).sampler = s.sampler ∧ (placeAwait c h t s).triggers = s.triggers ∧ (placeAwait c h t
    s).stamps = s.stamps ∧ (placeAwait c h t s).stream = s.stream ∧ (placeAwait c h t s).notices
    = s.notices ∧ (placeAwait c h t s).rx = s.rx ∧ (placeAwait c h t s).tx = s.tx ∧ (placeAwait
    c h t s).rate = s.rate ∧ (placeAwait c h t s).pins = s.pins ∧ (placeAwait c h t s).now =
    s.now ∧ (placeAwait c h t s).handed = s.handed ∧ (placeAwait c h t s).offered = s.offered ∧
    (placeAwait c h t s).removals = s.removals ∧ (placeAwait c h t s).endings = s.endings ∧
    (placeAwait c h t s).pending = s.pending := by
  simp [placeAwait]

/-! ## Channels -/

@[simp] theorem setChannel_keeps (n : Fin 8) (c : Channel) (s : State) :
    (setChannel n c s).time = s.time ∧ (setChannel n c s).table = s.table ∧ (setChannel n c
    s).lines = s.lines ∧ (setChannel n c s).sampler = s.sampler ∧ (setChannel n c s).triggers =
    s.triggers ∧ (setChannel n c s).stamps = s.stamps ∧ (setChannel n c s).stream = s.stream ∧
    (setChannel n c s).notices = s.notices ∧ (setChannel n c s).cmd = s.cmd ∧ (setChannel n c
    s).rx = s.rx ∧ (setChannel n c s).tx = s.tx ∧ (setChannel n c s).rate = s.rate ∧ (setChannel
    n c s).pins = s.pins ∧ (setChannel n c s).now = s.now ∧ (setChannel n c s).handed = s.handed
    ∧ (setChannel n c s).offered = s.offered ∧ (setChannel n c s).removals = s.removals ∧
    (setChannel n c s).endings = s.endings ∧ (setChannel n c s).pending = s.pending := by
  simp [setChannel]

@[simp] theorem readInput_keeps (n : Fin 8) (v : Level) (s : State) :
    (readInput n v s).time = s.time ∧ (readInput n v s).table = s.table ∧ (readInput n v
    s).lines = s.lines ∧ (readInput n v s).channels = s.channels ∧ (readInput n v s).sampler =
    s.sampler ∧ (readInput n v s).triggers = s.triggers ∧ (readInput n v s).stamps = s.stamps ∧
    (readInput n v s).stream = s.stream ∧ (readInput n v s).notices = s.notices ∧ (readInput n v
    s).cmd = s.cmd ∧ (readInput n v s).rx = s.rx ∧ (readInput n v s).tx = s.tx ∧ (readInput n v
    s).rate = s.rate ∧ (readInput n v s).now = s.now ∧ (readInput n v s).handed = s.handed ∧
    (readInput n v s).offered = s.offered ∧ (readInput n v s).removals = s.removals ∧ (readInput
    n v s).endings = s.endings ∧ (readInput n v s).pending = s.pending := by
  simp [readInput]

@[simp] theorem formEvent_keeps (n : Fin 8) (o : StampOffer) (t : Time) (s : State) :
    (formEvent n o t s).time = s.time ∧ (formEvent n o t s).table = s.table ∧ (formEvent n o t
    s).lines = s.lines ∧ (formEvent n o t s).sampler = s.sampler ∧ (formEvent n o t s).triggers
    = s.triggers ∧ (formEvent n o t s).stamps = s.stamps ∧ (formEvent n o t s).stream = s.stream
    ∧ (formEvent n o t s).notices = s.notices ∧ (formEvent n o t s).cmd = s.cmd ∧ (formEvent n o
    t s).rx = s.rx ∧ (formEvent n o t s).tx = s.tx ∧ (formEvent n o t s).rate = s.rate ∧
    (formEvent n o t s).pins = s.pins ∧ (formEvent n o t s).now = s.now ∧ (formEvent n o t
    s).offered = s.offered ∧ (formEvent n o t s).removals = s.removals ∧ (formEvent n o t
    s).endings = s.endings ∧ (formEvent n o t s).pending = s.pending := by
  simp only [formEvent]; split <;> simp

@[simp] theorem edgeEvent_keeps (n : Fin 8) (d : Polarity) (t : Time) (s : State) :
    (edgeEvent n d t s).time = s.time ∧ (edgeEvent n d t s).table = s.table ∧ (edgeEvent n d t
    s).lines = s.lines ∧ (edgeEvent n d t s).sampler = s.sampler ∧ (edgeEvent n d t s).triggers
    = s.triggers ∧ (edgeEvent n d t s).stamps = s.stamps ∧ (edgeEvent n d t s).stream = s.stream
    ∧ (edgeEvent n d t s).notices = s.notices ∧ (edgeEvent n d t s).cmd = s.cmd ∧ (edgeEvent n d
    t s).rx = s.rx ∧ (edgeEvent n d t s).tx = s.tx ∧ (edgeEvent n d t s).rate = s.rate ∧
    (edgeEvent n d t s).pins = s.pins ∧ (edgeEvent n d t s).now = s.now ∧ (edgeEvent n d t
    s).offered = s.offered ∧ (edgeEvent n d t s).removals = s.removals ∧ (edgeEvent n d t
    s).endings = s.endings ∧ (edgeEvent n d t s).pending = s.pending := by
  simp [edgeEvent]

@[simp] theorem periodEdge_keeps (n : Fin 8) (t : Time) (s : State) :
    (periodEdge n t s).time = s.time ∧ (periodEdge n t s).table = s.table ∧ (periodEdge n t
    s).lines = s.lines ∧ (periodEdge n t s).sampler = s.sampler ∧ (periodEdge n t s).triggers =
    s.triggers ∧ (periodEdge n t s).stamps = s.stamps ∧ (periodEdge n t s).stream = s.stream ∧
    (periodEdge n t s).notices = s.notices ∧ (periodEdge n t s).cmd = s.cmd ∧ (periodEdge n t
    s).rx = s.rx ∧ (periodEdge n t s).tx = s.tx ∧ (periodEdge n t s).rate = s.rate ∧ (periodEdge
    n t s).pins = s.pins ∧ (periodEdge n t s).now = s.now ∧ (periodEdge n t s).offered =
    s.offered ∧ (periodEdge n t s).removals = s.removals ∧ (periodEdge n t s).endings =
    s.endings ∧ (periodEdge n t s).pending = s.pending := by
  simp only [periodEdge]; split <;> simp

@[simp] theorem widthEdge_keeps (n : Fin 8) (d : Polarity) (t : Time) (s : State) :
    (widthEdge n d t s).time = s.time ∧ (widthEdge n d t s).table = s.table ∧ (widthEdge n d t
    s).lines = s.lines ∧ (widthEdge n d t s).sampler = s.sampler ∧ (widthEdge n d t s).triggers
    = s.triggers ∧ (widthEdge n d t s).stamps = s.stamps ∧ (widthEdge n d t s).stream = s.stream
    ∧ (widthEdge n d t s).notices = s.notices ∧ (widthEdge n d t s).cmd = s.cmd ∧ (widthEdge n d
    t s).rx = s.rx ∧ (widthEdge n d t s).tx = s.tx ∧ (widthEdge n d t s).rate = s.rate ∧
    (widthEdge n d t s).pins = s.pins ∧ (widthEdge n d t s).now = s.now ∧ (widthEdge n d t
    s).offered = s.offered ∧ (widthEdge n d t s).removals = s.removals ∧ (widthEdge n d t
    s).endings = s.endings ∧ (widthEdge n d t s).pending = s.pending := by
  simp only [widthEdge]; split <;> (try split) <;> simp

@[simp] theorem takeTransition_keeps (n : Fin 8) (v : Level) (t : Time) (s : State) :
    (takeTransition n v t s).time = s.time ∧ (takeTransition n v t s).table = s.table ∧
    (takeTransition n v t s).lines = s.lines ∧ (takeTransition n v t s).sampler = s.sampler ∧
    (takeTransition n v t s).triggers = s.triggers ∧ (takeTransition n v t s).stamps = s.stamps
    ∧ (takeTransition n v t s).stream = s.stream ∧ (takeTransition n v t s).notices = s.notices
    ∧ (takeTransition n v t s).cmd = s.cmd ∧ (takeTransition n v t s).rx = s.rx ∧
    (takeTransition n v t s).tx = s.tx ∧ (takeTransition n v t s).rate = s.rate ∧
    (takeTransition n v t s).pins = s.pins ∧ (takeTransition n v t s).now = s.now ∧
    (takeTransition n v t s).offered = s.offered ∧ (takeTransition n v t s).removals =
    s.removals ∧ (takeTransition n v t s).endings = s.endings ∧ (takeTransition n v t s).pending
    = s.pending := by
  simp only [takeTransition]
  repeat' (first | split | simp)

@[simp] theorem sampleRunning_keeps (n : Fin 8) (v : Level) (p : Option Pending) (s : State) :
    (sampleRunning n v p s).time = s.time ∧ (sampleRunning n v p s).table = s.table ∧
    (sampleRunning n v p s).lines = s.lines ∧ (sampleRunning n v p s).sampler = s.sampler ∧
    (sampleRunning n v p s).triggers = s.triggers ∧ (sampleRunning n v p s).stamps = s.stamps ∧
    (sampleRunning n v p s).stream = s.stream ∧ (sampleRunning n v p s).notices = s.notices ∧
    (sampleRunning n v p s).cmd = s.cmd ∧ (sampleRunning n v p s).rx = s.rx ∧ (sampleRunning n v
    p s).tx = s.tx ∧ (sampleRunning n v p s).rate = s.rate ∧ (sampleRunning n v p s).pins =
    s.pins ∧ (sampleRunning n v p s).now = s.now ∧ (sampleRunning n v p s).offered = s.offered ∧
    (sampleRunning n v p s).removals = s.removals ∧ (sampleRunning n v p s).endings = s.endings
    ∧ (sampleRunning n v p s).pending = s.pending := by
  simp only [sampleRunning]; split <;> simp

@[simp] theorem samplePriming_keeps (n : Fin 8) (k : Nat) (s : State) :
    (samplePriming n k s).time = s.time ∧ (samplePriming n k s).table = s.table ∧ (samplePriming
    n k s).lines = s.lines ∧ (samplePriming n k s).sampler = s.sampler ∧ (samplePriming n k
    s).triggers = s.triggers ∧ (samplePriming n k s).stamps = s.stamps ∧ (samplePriming n k
    s).stream = s.stream ∧ (samplePriming n k s).notices = s.notices ∧ (samplePriming n k s).cmd
    = s.cmd ∧ (samplePriming n k s).rx = s.rx ∧ (samplePriming n k s).tx = s.tx ∧ (samplePriming
    n k s).rate = s.rate ∧ (samplePriming n k s).pins = s.pins ∧ (samplePriming n k s).now =
    s.now ∧ (samplePriming n k s).handed = s.handed ∧ (samplePriming n k s).offered = s.offered
    ∧ (samplePriming n k s).removals = s.removals ∧ (samplePriming n k s).endings = s.endings ∧
    (samplePriming n k s).pending = s.pending := by
  simp [samplePriming]

@[simp] theorem takeSample_keeps (n : Fin 8) (s : State) :
    (takeSample n s).time = s.time ∧ (takeSample n s).table = s.table ∧ (takeSample n s).lines =
    s.lines ∧ (takeSample n s).sampler = s.sampler ∧ (takeSample n s).triggers = s.triggers ∧
    (takeSample n s).stamps = s.stamps ∧ (takeSample n s).stream = s.stream ∧ (takeSample n
    s).notices = s.notices ∧ (takeSample n s).cmd = s.cmd ∧ (takeSample n s).rx = s.rx ∧
    (takeSample n s).tx = s.tx ∧ (takeSample n s).rate = s.rate ∧ (takeSample n s).pins = s.pins
    ∧ (takeSample n s).now = s.now ∧ (takeSample n s).offered = s.offered ∧ (takeSample n
    s).removals = s.removals ∧ (takeSample n s).endings = s.endings ∧ (takeSample n s).pending =
    s.pending := by
  simp only [takeSample]; split <;> simp

/-! ## Sampling -/

@[simp] theorem samplerOff_keeps (s : State) :
    (samplerOff s).time = s.time ∧ (samplerOff s).table = s.table ∧ (samplerOff s).lines =
    s.lines ∧ (samplerOff s).channels = s.channels ∧ (samplerOff s).triggers = s.triggers ∧
    (samplerOff s).stamps = s.stamps ∧ (samplerOff s).stream = s.stream ∧ (samplerOff s).notices
    = s.notices ∧ (samplerOff s).cmd = s.cmd ∧ (samplerOff s).rx = s.rx ∧ (samplerOff s).tx =
    s.tx ∧ (samplerOff s).rate = s.rate ∧ (samplerOff s).pins = s.pins ∧ (samplerOff s).now =
    s.now ∧ (samplerOff s).handed = s.handed ∧ (samplerOff s).offered = s.offered ∧ (samplerOff
    s).removals = s.removals ∧ (samplerOff s).endings = s.endings ∧ (samplerOff s).pending =
    s.pending := by
  simp [samplerOff]

@[simp] theorem samplerOn_keeps (s : State) :
    (samplerOn s).time = s.time ∧ (samplerOn s).table = s.table ∧ (samplerOn s).lines = s.lines
    ∧ (samplerOn s).channels = s.channels ∧ (samplerOn s).triggers = s.triggers ∧ (samplerOn
    s).stamps = s.stamps ∧ (samplerOn s).stream = s.stream ∧ (samplerOn s).notices = s.notices ∧
    (samplerOn s).cmd = s.cmd ∧ (samplerOn s).rx = s.rx ∧ (samplerOn s).tx = s.tx ∧ (samplerOn
    s).rate = s.rate ∧ (samplerOn s).pins = s.pins ∧ (samplerOn s).now = s.now ∧ (samplerOn
    s).handed = s.handed ∧ (samplerOn s).offered = s.offered ∧ (samplerOn s).removals =
    s.removals ∧ (samplerOn s).endings = s.endings ∧ (samplerOn s).pending = s.pending := by
  simp only [samplerOn]; split <;> simp

@[simp] theorem readAnalog_keeps (i : Fin 4) (v : BitVec 12) (s : State) :
    (readAnalog i v s).time = s.time ∧ (readAnalog i v s).table = s.table ∧ (readAnalog i v
    s).lines = s.lines ∧ (readAnalog i v s).channels = s.channels ∧ (readAnalog i v s).sampler =
    s.sampler ∧ (readAnalog i v s).triggers = s.triggers ∧ (readAnalog i v s).stamps = s.stamps
    ∧ (readAnalog i v s).stream = s.stream ∧ (readAnalog i v s).notices = s.notices ∧
    (readAnalog i v s).cmd = s.cmd ∧ (readAnalog i v s).rx = s.rx ∧ (readAnalog i v s).tx = s.tx
    ∧ (readAnalog i v s).rate = s.rate ∧ (readAnalog i v s).now = s.now ∧ (readAnalog i v
    s).handed = s.handed ∧ (readAnalog i v s).offered = s.offered ∧ (readAnalog i v s).removals
    = s.removals ∧ (readAnalog i v s).endings = s.endings ∧ (readAnalog i v s).pending =
    s.pending := by
  simp [readAnalog]

@[simp] theorem takeResult_keeps (c : ConvContext) (r : BitVec 12) (s : State) :
    (takeResult c r s).time = s.time ∧ (takeResult c r s).table = s.table ∧ (takeResult c r
    s).lines = s.lines ∧ (takeResult c r s).channels = s.channels ∧ (takeResult c r s).triggers
    = s.triggers ∧ (takeResult c r s).stamps = s.stamps ∧ (takeResult c r s).stream = s.stream ∧
    (takeResult c r s).notices = s.notices ∧ (takeResult c r s).cmd = s.cmd ∧ (takeResult c r
    s).rx = s.rx ∧ (takeResult c r s).tx = s.tx ∧ (takeResult c r s).rate = s.rate ∧ (takeResult
    c r s).pins = s.pins ∧ (takeResult c r s).now = s.now ∧ (takeResult c r s).offered =
    s.offered ∧ (takeResult c r s).removals = s.removals ∧ (takeResult c r s).endings =
    s.endings ∧ (takeResult c r s).pending = s.pending := by
  simp only [takeResult]; split <;> split <;> simp

/-! ## Triggers -/

@[simp] theorem offerMiss_keeps (k : Fin 16) (m : MissDetail) (b : Template) (s : State) :
    (offerMiss k m b s).time = s.time ∧ (offerMiss k m b s).table = s.table ∧ (offerMiss k m b
    s).lines = s.lines ∧ (offerMiss k m b s).channels = s.channels ∧ (offerMiss k m b s).sampler
    = s.sampler ∧ (offerMiss k m b s).triggers = s.triggers ∧ (offerMiss k m b s).stamps =
    s.stamps ∧ (offerMiss k m b s).stream = s.stream ∧ (offerMiss k m b s).notices = s.notices ∧
    (offerMiss k m b s).cmd = s.cmd ∧ (offerMiss k m b s).rx = s.rx ∧ (offerMiss k m b s).tx =
    s.tx ∧ (offerMiss k m b s).rate = s.rate ∧ (offerMiss k m b s).pins = s.pins ∧ (offerMiss k
    m b s).now = s.now ∧ (offerMiss k m b s).handed = s.handed ∧ (offerMiss k m b s).removals =
    s.removals ∧ (offerMiss k m b s).endings = s.endings ∧ (offerMiss k m b s).pending =
    s.pending := by
  simp [offerMiss]

@[simp] theorem takeAnswer_keeps (r : AdmissionRequest) (a : AdmitAnswer) (s : State) :
    (takeAnswer r a s).time = s.time ∧ (takeAnswer r a s).table = s.table ∧ (takeAnswer r a
    s).lines = s.lines ∧ (takeAnswer r a s).channels = s.channels ∧ (takeAnswer r a s).sampler =
    s.sampler ∧ (takeAnswer r a s).stamps = s.stamps ∧ (takeAnswer r a s).stream = s.stream ∧
    (takeAnswer r a s).notices = s.notices ∧ (takeAnswer r a s).cmd = s.cmd ∧ (takeAnswer r a
    s).rx = s.rx ∧ (takeAnswer r a s).tx = s.tx ∧ (takeAnswer r a s).rate = s.rate ∧ (takeAnswer
    r a s).pins = s.pins ∧ (takeAnswer r a s).now = s.now ∧ (takeAnswer r a s).handed = s.handed
    ∧ (takeAnswer r a s).removals = s.removals ∧ (takeAnswer r a s).endings = s.endings ∧
    (takeAnswer r a s).pending = s.pending := by
  simp only [takeAnswer]; split <;> simp

@[simp] theorem continueVisit_keeps (e : SourceEvent) (k : Fin 16) (s : State) :
    (continueVisit e k s).time = s.time ∧ (continueVisit e k s).table = s.table ∧ (continueVisit
    e k s).lines = s.lines ∧ (continueVisit e k s).channels = s.channels ∧ (continueVisit e k
    s).sampler = s.sampler ∧ (continueVisit e k s).stamps = s.stamps ∧ (continueVisit e k
    s).stream = s.stream ∧ (continueVisit e k s).notices = s.notices ∧ (continueVisit e k s).cmd
    = s.cmd ∧ (continueVisit e k s).rx = s.rx ∧ (continueVisit e k s).tx = s.tx ∧ (continueVisit
    e k s).rate = s.rate ∧ (continueVisit e k s).pins = s.pins ∧ (continueVisit e k s).now =
    s.now ∧ (continueVisit e k s).handed = s.handed ∧ (continueVisit e k s).offered = s.offered
    ∧ (continueVisit e k s).removals = s.removals ∧ (continueVisit e k s).endings = s.endings ∧
    (continueVisit e k s).pending = s.pending := by
  simp [continueVisit]

@[simp] theorem cancelHandle_keeps (h : Handle) (s : State) :
    (cancelHandle h s).time = s.time ∧ (cancelHandle h s).lines = s.lines ∧ (cancelHandle h
    s).channels = s.channels ∧ (cancelHandle h s).sampler = s.sampler ∧ (cancelHandle h
    s).stamps = s.stamps ∧ (cancelHandle h s).stream = s.stream ∧ (cancelHandle h s).notices =
    s.notices ∧ (cancelHandle h s).cmd = s.cmd ∧ (cancelHandle h s).rx = s.rx ∧ (cancelHandle h
    s).tx = s.tx ∧ (cancelHandle h s).rate = s.rate ∧ (cancelHandle h s).pins = s.pins ∧
    (cancelHandle h s).now = s.now ∧ (cancelHandle h s).handed = s.handed ∧ (cancelHandle h
    s).endings = s.endings ∧ (cancelHandle h s).pending = s.pending := by
  simp only [cancelHandle]; split <;> simp

@[simp] theorem endClear_keeps (n : Nat) (s : State) :
    (endClear n s).time = s.time ∧ (endClear n s).table = s.table ∧ (endClear n s).lines =
    s.lines ∧ (endClear n s).channels = s.channels ∧ (endClear n s).sampler = s.sampler ∧
    (endClear n s).triggers = s.triggers ∧ (endClear n s).stamps = s.stamps ∧ (endClear n
    s).stream = s.stream ∧ (endClear n s).notices = s.notices ∧ (endClear n s).rx = s.rx ∧
    (endClear n s).tx = s.tx ∧ (endClear n s).rate = s.rate ∧ (endClear n s).pins = s.pins ∧
    (endClear n s).now = s.now ∧ (endClear n s).handed = s.handed ∧ (endClear n s).offered =
    s.offered ∧ (endClear n s).removals = s.removals ∧ (endClear n s).endings = s.endings ∧
    (endClear n s).pending = s.pending := by
  simp only [endClear]; split <;> simp

/-! ## The stream, the link and its ends -/

@[simp] theorem enableStream_keeps (b : Bool) (s : State) :
    (enableStream b s).time = s.time ∧ (enableStream b s).table = s.table ∧ (enableStream b
    s).lines = s.lines ∧ (enableStream b s).channels = s.channels ∧ (enableStream b s).sampler =
    s.sampler ∧ (enableStream b s).triggers = s.triggers ∧ (enableStream b s).notices =
    s.notices ∧ (enableStream b s).cmd = s.cmd ∧ (enableStream b s).rx = s.rx ∧ (enableStream b
    s).rate = s.rate ∧ (enableStream b s).pins = s.pins ∧ (enableStream b s).now = s.now ∧
    (enableStream b s).handed = s.handed ∧ (enableStream b s).offered = s.offered ∧
    (enableStream b s).removals = s.removals ∧ (enableStream b s).endings = s.endings ∧
    (enableStream b s).pending = s.pending := by
  simp only [enableStream]; split <;> simp

@[simp] theorem markWindow_keeps (s : State) :
    (markWindow s).time = s.time ∧ (markWindow s).table = s.table ∧ (markWindow s).lines =
    s.lines ∧ (markWindow s).channels = s.channels ∧ (markWindow s).sampler = s.sampler ∧
    (markWindow s).triggers = s.triggers ∧ (markWindow s).stamps = s.stamps ∧ (markWindow
    s).notices = s.notices ∧ (markWindow s).cmd = s.cmd ∧ (markWindow s).rx = s.rx ∧ (markWindow
    s).rate = s.rate ∧ (markWindow s).pins = s.pins ∧ (markWindow s).now = s.now ∧ (markWindow
    s).handed = s.handed ∧ (markWindow s).offered = s.offered ∧ (markWindow s).removals =
    s.removals ∧ (markWindow s).endings = s.endings ∧ (markWindow s).pending = s.pending := by
  simp [markWindow]

@[simp] theorem tellSent_keeps (src : FrameSource) (s : State) :
    (tellSent src s).time = s.time ∧ (tellSent src s).table = s.table ∧ (tellSent src s).lines =
    s.lines ∧ (tellSent src s).channels = s.channels ∧ (tellSent src s).sampler = s.sampler ∧
    (tellSent src s).triggers = s.triggers ∧ (tellSent src s).stamps = s.stamps ∧ (tellSent src
    s).notices = s.notices ∧ (tellSent src s).rx = s.rx ∧ (tellSent src s).tx = s.tx ∧ (tellSent
    src s).rate = s.rate ∧ (tellSent src s).pins = s.pins ∧ (tellSent src s).now = s.now ∧
    (tellSent src s).handed = s.handed ∧ (tellSent src s).offered = s.offered ∧ (tellSent src
    s).removals = s.removals ∧ (tellSent src s).endings = s.endings ∧ (tellSent src s).pending =
    s.pending := by
  cases src <;> simp [tellSent]

@[simp] theorem takeBoundary_keeps (s : State) :
    (takeBoundary s).time = s.time ∧ (takeBoundary s).table = s.table ∧ (takeBoundary s).lines =
    s.lines ∧ (takeBoundary s).channels = s.channels ∧ (takeBoundary s).sampler = s.sampler ∧
    (takeBoundary s).triggers = s.triggers ∧ (takeBoundary s).rx = s.rx ∧ (takeBoundary s).rate
    = s.rate ∧ (takeBoundary s).pins = s.pins ∧ (takeBoundary s).now = s.now ∧ (takeBoundary
    s).handed = s.handed ∧ (takeBoundary s).offered = s.offered ∧ (takeBoundary s).removals =
    s.removals ∧ (takeBoundary s).endings = s.endings ∧ (takeBoundary s).pending = s.pending := by
  simp [takeBoundary]

end Sys2Proof.Machine
end

