-- ==== Sys2Proof/Laws/Answers.lean ====
section
/-! SUPPORT. The end of a step and of a command: what the boundary, the filling of a slot and an answer
can do, said once. -/

namespace Sys2Proof.Machine

/-! ## Filling a slot -/

@[simp] theorem fillSlot_slots (i : Fin 16) (r : Reply) (s : State) :
    (fillSlot i r s).cmd.slots = s.cmd.slots.set i (.filled r) := rfl

@[simp] theorem fillSlot_cmd_rest (i : Fin 16) (r : Reply) (s : State) :
    (fillSlot i r s).cmd.queue = s.cmd.queue ∧ (fillSlot i r s).cmd.awaits = s.cmd.awaits
    ∧ (fillSlot i r s).cmd.replyQueue = s.cmd.replyQueue ++ [i]
    ∧ (fillSlot i r s).cmd.resetPending = s.cmd.resetPending
    ∧ (fillSlot i r s).cmd.accepted = s.cmd.accepted ∧ (fillSlot i r s).cmd.refused = s.cmd.refused
    ∧ (fillSlot i r s).cmd.refusalsLost = s.cmd.refusalsLost
    ∧ (fillSlot i r s).cmd.tagZero = s.cmd.tagZero := by simp [fillSlot]

@[simp] theorem fillSlot_tx (i : Fin 16) (r : Reply) (s : State) :
    (fillSlot i r s).tx = { s.tx with told := true } := rfl

@[simp] theorem fillSlot_progress (i : Fin 16) (r : Reply) (s : State) :
    (fillSlot i r s).cmd.progress = s.cmd.progress := rfl

/-! ## Answers to awaits -/

/-- Answering await entries fills their slots in list order and leaves the queue, the await list and
the counts (R168, R169, R173). -/
@[simp] theorem answerEntries_cmd (st : Status) (f : Payload) (l : List AwaitEntry) (s : State) :
    (answerEntries st f l s).cmd.queue = s.cmd.queue
    ∧ (answerEntries st f l s).cmd.awaits = s.cmd.awaits
    ∧ (answerEntries st f l s).cmd.replyQueue = s.cmd.replyQueue ++ l.map AwaitEntry.slot
    ∧ (answerEntries st f l s).cmd.resetPending = s.cmd.resetPending
    ∧ (answerEntries st f l s).cmd.accepted = s.cmd.accepted
    ∧ (answerEntries st f l s).cmd.refused = s.cmd.refused
    ∧ (answerEntries st f l s).cmd.refusalsLost = s.cmd.refusalsLost
    ∧ (answerEntries st f l s).cmd.tagZero = s.cmd.tagZero
    ∧ (answerEntries st f l s).cmd.progress = s.cmd.progress := by
  induction l generalizing s with
  | nil => simp [answerEntries]
  | cons a l ih => simp [answerEntries, ih]

/-- A slot that no answered entry holds is untouched. -/
theorem answerEntries_other {st : Status} {f : Payload} {l : List AwaitEntry} {s : State}
    {i : Fin 16} (h : ∀ a ∈ l, a.slot ≠ i) :
    (answerEntries st f l s).cmd.slots[i] = s.cmd.slots[i] := by
  induction l generalizing s with
  | nil => rfl
  | cons a l ih =>
    rw [answerEntries, ih (fun x hx => h x (by simp [hx]))]
    have := Fin.val_ne_of_ne (h a (by simp))
    simp [this]

/-- An answered entry's slot holds its reply, when the entries hold slots of their own. -/
theorem answerEntries_own {st : Status} {f : Payload} {l : List AwaitEntry} {s : State}
    (hn : (l.map AwaitEntry.slot).Nodup) {a : AwaitEntry} (ha : a ∈ l) :
    (answerEntries st f l s).cmd.slots[a.slot] = .filled (awaitReply a st f) := by
  induction l generalizing s with
  | nil => simp at ha
  | cons b l ih =>
    rw [List.map_cons] at hn
    obtain ⟨h1, h2⟩ := List.nodup_cons.1 hn
    rcases List.mem_cons.1 ha with rfl | ha
    · rw [answerEntries, answerEntries_other (fun x hx e => h1 (by rw [← e]; exact List.mem_map_of_mem hx))]
      simp
    · exact ih h2 ha

/-- Answering entries tells the transmitter when there is one to answer. -/
@[simp] theorem answerEntries_tx (st : Status) (f : Payload) (l : List AwaitEntry) (s : State) :
    (answerEntries st f l s).tx = { s.tx with told := s.tx.told || !l.isEmpty } := by
  induction l generalizing s with
  | nil => simp [answerEntries]
  | cons a l ih => simp [answerEntries, ih]

@[simp] theorem answerAwaits_cmd (h : Handle) (e : EndReason) (s : State) :
    (answerAwaits h e s).cmd.queue = s.cmd.queue
    ∧ (answerAwaits h e s).cmd.awaits = s.cmd.awaits.filter (fun a => a.handle ≠ h)
    ∧ (answerAwaits h e s).cmd.replyQueue = s.cmd.replyQueue
        ++ (s.cmd.awaits.filter (fun a => a.handle = h)).map AwaitEntry.slot
    ∧ (answerAwaits h e s).cmd.resetPending = s.cmd.resetPending
    ∧ (answerAwaits h e s).cmd.accepted = s.cmd.accepted
    ∧ (answerAwaits h e s).cmd.refused = s.cmd.refused
    ∧ (answerAwaits h e s).cmd.refusalsLost = s.cmd.refusalsLost
    ∧ (answerAwaits h e s).cmd.tagZero = s.cmd.tagZero
    ∧ (answerAwaits h e s).cmd.progress = s.cmd.progress := by
  simp [answerAwaits]

/-- An answer to awaits tells the transmitter when there is one to answer (R189). -/
@[simp] theorem answerAwaits_tx (h : Handle) (e : EndReason) (s : State) :
    (answerAwaits h e s).tx = { s.tx with told := s.tx.told
      || !(s.cmd.awaits.filter (fun a => a.handle = h)).isEmpty } := by
  simp [answerAwaits]

/-! ## Removal reports (R168) -/

/-- The await list takes reports: the commands and counts stay, and the entries on the handles reported
leave. -/
@[simp] theorem answerReports_cmd (l : List RemovalReport) (s : State) :
    (answerReports l s).cmd.queue = s.cmd.queue
    ∧ (answerReports l s).cmd.awaits
        = s.cmd.awaits.filter (fun a => !l.any (fun x => a.handle = x.handle))
    ∧ (answerReports l s).cmd.resetPending = s.cmd.resetPending
    ∧ (answerReports l s).cmd.accepted = s.cmd.accepted
    ∧ (answerReports l s).cmd.refused = s.cmd.refused
    ∧ (answerReports l s).cmd.refusalsLost = s.cmd.refusalsLost
    ∧ (answerReports l s).cmd.tagZero = s.cmd.tagZero
    ∧ (answerReports l s).cmd.progress = s.cmd.progress
    ∧ (answerReports l s).tx.state = s.tx.state := by
  induction l generalizing s with
  | nil => simp [answerReports]
  | cons x l ih =>
    simp only [answerReports, ih, answerAwaits_cmd, answerAwaits_tx, List.filter_filter]
    simp [Bool.and_comm]

/-- What the await list's taking of every report that waits leaves of the command block and the
transmitter. -/
@[simp] theorem takeRemovals_cmd (s : State) :
    (takeRemovals s).cmd.queue = s.cmd.queue
    ∧ (takeRemovals s).cmd.awaits
        = s.cmd.awaits.filter (fun a => !s.removals.any (fun x => a.handle = x.handle))
    ∧ (takeRemovals s).cmd.resetPending = s.cmd.resetPending
    ∧ (takeRemovals s).cmd.accepted = s.cmd.accepted
    ∧ (takeRemovals s).cmd.refused = s.cmd.refused
    ∧ (takeRemovals s).cmd.refusalsLost = s.cmd.refusalsLost
    ∧ (takeRemovals s).cmd.tagZero = s.cmd.tagZero
    ∧ (takeRemovals s).cmd.progress = s.cmd.progress
    ∧ (takeRemovals s).tx.state = s.tx.state := by
  simp [takeRemovals]

/-- No report waits once every one is taken. -/
@[simp] theorem takeRemovals_removals (s : State) : (takeRemovals s).removals = [] := by
  simp [takeRemovals]

/-- With no report waiting there is none to take. -/
theorem takeRemovals_none {s : State} (h : s.removals = []) : takeRemovals s = s := by
  have : s.withRemovals [] = s := by rw [← h]; rfl
  simp [takeRemovals, h, answerReports, this]

/-- The reports of one list after those of another. -/
@[simp] theorem answerReports_append (l m : List RemovalReport) (s : State) :
    answerReports (l ++ m) s = answerReports m (answerReports l s) := by
  induction l generalizing s with
  | nil => rfl
  | cons x l ih => exact ih _

/-! ## A reply made, and its filling (R164) -/

@[simp] theorem setProgress_cmd (p : Progress) (s : State) :
    (setProgress p s).cmd = { s.cmd with progress := p } := rfl

@[simp] theorem answer_cmd (c : QueuedCommand) (st : Status) (f : Payload) (s : State) :
    (answer c st f s).cmd = { s.cmd with progress := .replying (replyTo c st f) } := rfl

/-- A reply made fills the slot of the oldest command, which leaves the queue, once the removal reports
have been taken. -/
theorem fillMade_replying {s : State} {r : Reply} {c : QueuedCommand} {rest : List QueuedCommand}
    (hp : s.cmd.progress = .replying r) (hq : s.cmd.queue = c :: rest) :
    fillMade s = (((takeRemovals s).withCmd { (takeRemovals s).cmd with
        slots := (takeRemovals s).cmd.slots.set c.slot (.filled r)
        replyQueue := (takeRemovals s).cmd.replyQueue ++ [c.slot]
        queue := rest, progress := .notStarted }).withTx
      { (takeRemovals s).tx with told := true }) := by
  have hq' : (takeRemovals s).cmd.queue = c :: rest := by simp [hq]
  unfold fillMade
  simp only [hp, hq]
  generalize takeRemovals s = u at *
  simp only [fillSlot, withTx_cmd, withCmd_cmd, hq']
  rfl

/-- With no reply made nothing is filled. -/
theorem fillMade_none {s : State} (h : ∀ r, s.cmd.progress ≠ .replying r) : fillMade s = s := by
  unfold fillMade
  split
  · rename_i r _ _ hp _; exact absurd hp (h r)
  all_goals rfl

/-- The taking of the removal reports does not look at the progress. -/
theorem takeRemovals_setProgress (p : Progress) (s : State) :
    takeRemovals (setProgress p s) = setProgress p (takeRemovals s) := by
  have entries : ∀ (st : Status) (f : Payload) (l : List AwaitEntry) (u : State),
      answerEntries st f l (setProgress p u) = setProgress p (answerEntries st f l u) := by
    intro st f l
    induction l with
    | nil => intro u; rfl
    | cons a l ih => exact fun u => ih (fillSlot a.slot (awaitReply a st f) u)
  have awaits : ∀ (h : Handle) (e : EndReason) (u : State),
      answerAwaits h e (setProgress p u) = setProgress p (answerAwaits h e u) := by
    intro h e u
    simp only [answerAwaits, setProgress_cmd, entries]
    rfl
  have reports : ∀ (l : List RemovalReport) (u : State),
      answerReports l (setProgress p u) = setProgress p (answerReports l u) := by
    intro l
    induction l with
    | nil => intro u; rfl
    | cons x l ih =>
      exact fun u => (congrArg _ (awaits ..)).trans (ih (answerAwaits x.handle x.reason u))
  exact reports s.removals (s.withRemovals [])

/-! ## The boundary -/

/-- A boundary that finds a FILLED reply at the front of the reply queue begins it (R165, R189). -/
theorem boundary_reply {s : State} {i : Fin 16} {rest : List (Fin 16)} {r : Reply}
    (hq : s.cmd.replyQueue = i :: rest) (hr : s.cmd.slots[i] = .filled r) :
    boundary s = beginFrame (.reply i) ⟨r.tag, r.kind, r.payload⟩
      (s.withCmd { s.cmd with slots := s.cmd.slots.set i (.sending r), replyQueue := rest }) := by
  simp only [boundary, hq, hr]

/-- A boundary that finds a slot at the front of the reply queue that is not FILLED hands nothing
over. -/
theorem boundary_stuck {s : State} {i : Fin 16} {rest : List (Fin 16)}
    (hq : s.cmd.replyQueue = i :: rest) (hr : ∀ r, s.cmd.slots[i] ≠ .filled r) :
    boundary s = idleTx s := by
  simp only [boundary, hq]

/-- A boundary with no reply waiting while a soft reset is pending leaves the transmitter idle
(R191). -/
theorem boundary_drain {s : State} (hq : s.cmd.replyQueue = []) (hp : s.cmd.resetPending.isSome) :
    boundary s = idleTx s := by
  simp [boundary, hq, hp]

/-- A boundary with no reply waiting asks the Notice Queue and then the report stream (R189). -/
theorem boundary_ask {s : State} (hq : s.cmd.replyQueue = []) (hp : s.cmd.resetPending = none) :
    boundary s = askNoticeOrReport s := by
  simp [boundary, hq, hp]

@[simp] theorem idleTx_tx (s : State) : (idleTx s).tx = { s.tx with state := .idle } := rfl

@[simp] theorem beginFrame_tx (src : FrameSource) (f : Frame) (s : State) :
    (beginFrame src f s).tx = { s.tx with state := .sending src f } := rfl

@[simp] theorem askNoticeOrReport_told (s : State) :
    (askNoticeOrReport s).tx.told = s.tx.told := by
  simp only [askNoticeOrReport]
  split
  · simp
  · split
    · simp
    · split <;> simp

@[simp] theorem boundary_told (s : State) : (boundary s).tx.told = s.tx.told := by
  simp only [boundary]
  split
  · split <;> simp
  · split <;> simp

@[simp] theorem boundary_cmd_rest (s : State) :
    (boundary s).cmd.queue = s.cmd.queue ∧ (boundary s).cmd.awaits = s.cmd.awaits
    ∧ (boundary s).cmd.resetPending = s.cmd.resetPending
    ∧ (boundary s).cmd.accepted = s.cmd.accepted ∧ (boundary s).cmd.refused = s.cmd.refused
    ∧ (boundary s).cmd.refusalsLost = s.cmd.refusalsLost
    ∧ (boundary s).cmd.tagZero = s.cmd.tagZero := by
  simp only [boundary]
  split
  · split <;> simp
  · split <;> simp

/-! ## Taking offers (R146 to R148) -/

/-- What the Notice Queue makes of an offer rests on the queue alone. -/
theorem admitNotice_notices (o : NoticeOffer) {s u : State} (h : s.notices = u.notices) :
    (admitNotice o s).notices = (admitNotice o u).notices := by
  simp only [admitNotice, h]; split <;> simp

/-- The same for offers taken one after another. -/
theorem admitAll_notices (l : List NoticeOffer) {s u : State} (h : s.notices = u.notices) :
    (admitAll l s).notices = (admitAll l u).notices := by
  induction l generalizing s u with
  | nil => exact h
  | cons o l ih => exact ih (admitNotice_notices o h)

@[simp] theorem admitAll_append (l m : List NoticeOffer) (s : State) :
    admitAll (l ++ m) s = admitAll m (admitAll l s) := by
  induction l generalizing s with
  | nil => rfl
  | cons o l ih => exact ih _

/-- An offer taken leaves the transmitter's state. -/
@[simp] theorem admitNotice_txState (o : NoticeOffer) (s : State) :
    (admitNotice o s).tx.state = s.tx.state := by
  simp only [admitNotice]; split <;> simp

@[simp] theorem admitAll_txState (l : List NoticeOffer) (s : State) :
    (admitAll l s).tx.state = s.tx.state := by
  induction l generalizing s with
  | nil => rfl
  | cons o l ih => simp [admitAll, ih]

/-- The next offer of a block is one that waits. -/
theorem nextOffer_mem {b : NoticeBlock} {l : List NoticeOffer} {o : NoticeOffer}
    (h : nextOffer b l = some o) : o ∈ l := by
  induction l with
  | nil => simp [nextOffer] at h
  | cons a l ih =>
    simp only [nextOffer] at h
    split at h
    · simp_all
    · exact List.mem_cons_of_mem _ (ih (Option.filter_eq_some_iff.1 h).1)

/-! ## The end of a step -/

@[simp] theorem takeEndClaims_nil (s : State) : takeEndClaims [] s = s := rfl

@[simp] theorem takeEndClaims_cons (c : EndClaim) (cs : List EndClaim) (s : State) :
    takeEndClaims (c :: cs) s = takeEndClaims cs (takeEndClaim c s) := rfl

@[simp] theorem dropTelling_told (s : State) :
    (dropTelling s).tx.told = true → (dropTelling s).tx.state = .idle := by
  simp only [dropTelling]; split <;> simp_all

/-- With nothing left over and the usual ending a step ends where it stands. -/
theorem settle_quiet {s : State} (h : Quiet s) : settle s = s := by
  have he : s.withEndings [] = s := by rw [← h.endings]; rfl
  have ho : s.withOffered [] = s := by rw [← h.offered]; rfl
  have ht : s.withTx ⟨s.tx.state, false⟩ = s := by rw [← h.told]; rfl
  simp [settle, h.endings, he, usualEnding, takeEndClaim, takeRemovals_none h.removals, takeOffers,
    h.offered, ho, admitAll, answerTelling, h.told, dropTelling, ht]

/-- A state is the one before with the fields that the claims of an ending can change. -/
theorem takeEndClaims_rest (l : List EndClaim) (s : State) : takeEndClaims l s
    = (((((((s.withCmd (takeEndClaims l s).cmd).withNotices (takeEndClaims l s).notices).withStream
        (takeEndClaims l s).stream).withStamps (takeEndClaims l s).stamps).withTx
        (takeEndClaims l s).tx).withOffered (takeEndClaims l s).offered).withRemovals
        (takeEndClaims l s).removals) := by
  have h := takeEndClaims_keeps l s
  revert h
  generalize takeEndClaims l s = t
  intro h
  cases t; cases s
  simp_all [State.withCmd, State.withNotices, State.withStream, State.withStamps, State.withTx,
    State.withOffered, State.withRemovals]

/-- The oldest report taken answers its entries, and the other reports still wait. -/
theorem takeRemoval_waiting (s : State) : (takeRemoval s).cmd.queue = s.cmd.queue
    ∧ unreported (takeRemoval s).cmd.awaits (takeRemoval s).removals
      = unreported s.cmd.awaits s.removals := by
  simp only [takeRemoval]
  split
  · simp
  · rename_i x xs h
    simp [unreported, h, List.filter_filter, Bool.and_comm]

/-- The claims of an ending leave the commands that wait, and the awaits that no report names. -/
theorem takeEndClaims_waiting (l : List EndClaim) (s : State) :
    (takeEndClaims l s).cmd.queue = s.cmd.queue
    ∧ unreported (takeEndClaims l s).cmd.awaits (takeEndClaims l s).removals
      = unreported s.cmd.awaits s.removals := by
  induction l generalizing s with
  | nil => simp
  | cons c l ih =>
    rw [takeEndClaims_cons, (ih _).1, (ih _).2]
    cases c with
    | offer b => simp [takeEndClaim]
    | offers => simp [takeEndClaim]
    | removal => exact takeRemoval_waiting s
    | removals => simp [takeEndClaim, unreported]
    | boundary => simp only [takeEndClaim, answerTelling]; split <;> simp

/-- What the end of a step can change. -/
theorem settle_settlesTo (u : State) : SettlesTo u (settle u) := by
  have hw := takeEndClaims_waiting (u.endings.headD usualEnding) (u.withEndings u.endings.tail)
  refine ⟨?_, dropTelling_told _, by simpa [settle] using hw.1,
    by simpa [settle, unreported] using hw.2, by simp [settle]⟩
  have h := settle_keeps u
  have hr : (settle u).removals = [] := by simp [settle]
  revert h hr
  generalize settle u = t
  intro h hr
  cases t; cases u
  simp_all [State.withCmd, State.withNotices, State.withStream, State.withStamps, State.withTx,
    State.withOffered, State.withRemovals, State.withEndings]

/-! ## The end of an execution -/

/-- What claims that follow the filling of a slot, in w, can have done in x: the Notice Queue has taken
offers, and an idle transmitter may have begun the oldest reply. No removal report waits by then. -/
structure Sends (w x : State) : Prop where
  rest : x = (((w.withCmd x.cmd).withTx x.tx).withNotices x.notices).withOffered x.offered
  reply : (x.cmd = w.cmd ∧ x.tx.state = w.tx.state) ∨ w.tx.state = .idle ∧ x.tx.state ≠ .idle
    ∧ ∃ i rest r, w.cmd.replyQueue = i :: rest ∧ w.cmd.slots[i] = .filled r
      ∧ x.cmd = { w.cmd with slots := w.cmd.slots.set i (.sending r), replyQueue := rest }
  taken : ∃ l : List NoticeOffer, (l ++ x.offered).Perm w.offered
    ∧ x.notices = (admitAll l w).notices

theorem Sends.refl (w : State) : Sends w w := ⟨rfl, .inl ⟨rfl, rfl⟩, [], .refl _, rfl⟩

/-- One claim of the ending goes on as `Sends` says, while a reply waits and no removal report does. -/
theorem Sends.claim {w x : State} (h : Sends w x) (hq : w.cmd.replyQueue ≠ [])
    (hr : w.removals = []) (c : EndClaim) : Sends w (takeEndClaim c x) := by
  have hx : x.removals = [] := by rw [h.rest]; simpa using hr
  obtain ⟨l, hl, hn⟩ := h.taken
  cases c with
  | offer b =>
    simp only [takeEndClaim, takeNextOffer]
    split
    · exact h
    · rename_i o ho
      refine ⟨?_, by simpa using h.reply, l ++ [o], ?_, ?_⟩
      · have hk := admitNotice_keeps o (x.withOffered (x.offered.erase o))
        revert hk
        generalize admitNotice o (x.withOffered (x.offered.erase o)) = y
        intro hk
        have hr := h.rest
        cases x; cases y; cases w
        simp_all [State.withCmd, State.withTx, State.withNotices, State.withOffered]
      · simp only [admitNotice_keeps, withOffered_offered, List.append_assoc, List.singleton_append]
        exact ((List.perm_cons_erase (nextOffer_mem ho)).symm.append_left l).trans hl
      · rw [admitAll_append]
        exact admitNotice_notices o (by simpa using hn)
  | offers =>
    simp only [takeEndClaim, takeOffers]
    refine ⟨?_, by simpa using h.reply, l ++ x.offered, by simpa using hl, ?_⟩
    · have hk := admitAll_keeps x.offered (x.withOffered [])
      revert hk
      generalize admitAll x.offered (x.withOffered []) = y
      intro hk
      have hr := h.rest
      cases x; cases y; cases w
      simp_all [State.withCmd, State.withTx, State.withNotices, State.withOffered]
    · rw [admitAll_append]
      exact admitAll_notices _ (by simpa using hn)
  | removal => simpa [takeEndClaim, takeRemoval, hx] using h
  | removals => simpa [takeEndClaim, takeRemovals_none hx] using h
  | boundary =>
    simp only [takeEndClaim, answerTelling]
    split
    · rename_i ht
      rcases h.reply with ⟨hc, hi⟩ | ⟨_, hi, _⟩
      · obtain ⟨i, rest, hr⟩ := List.exists_cons_of_ne_nil hq
        by_cases hf : ∃ r, w.cmd.slots[i] = .filled r
        · obtain ⟨r, hf⟩ := hf
          rw [boundary_reply (i := i) (rest := rest) (r := r) (by simp [hc, hr])
            (by simpa [hc] using hf)]
          refine ⟨?_, .inr ⟨hi ▸ ht.2, by simp, i, rest, r, hr, hf, by simp [hc]⟩, l, by simpa using hl,
            by simpa using hn⟩
          have hr := h.rest
          cases x; cases w
          simp_all [State.withCmd, State.withTx, State.withNotices, State.withOffered, beginFrame]
        · rw [boundary_stuck (i := i) (rest := rest) (by simp [hc, hr]) (by simpa [hc] using hf)]
          refine ⟨?_, .inl ⟨by simpa using hc, by simp [← hi, ht.2]⟩, l, by simpa using hl,
            by simpa using hn⟩
          have hr := h.rest
          cases x; cases w
          simp_all [State.withCmd, State.withTx, State.withNotices, State.withOffered, idleTx]
      · exact absurd ht.2 hi
    · exact h

/-- The claims of the ending go on as `Sends` says, while a reply waits and no removal report does. -/
theorem Sends.claims {w x : State} (h : Sends w x) (hq : w.cmd.replyQueue ≠ [])
    (hr : w.removals = []) (cs : List EndClaim) : Sends w (takeEndClaims cs x) := by
  induction cs generalizing x with
  | nil => exact h
  | cons c cs ih => exact ih (h.claim hq hr c)

/-- The end of an execution: whatever state it finds, filling the reply made gives a next state, and
does no more than Filled says of the state in which the removal reports have been taken. -/
theorem finish_fillMade {c : QueuedCommand} {m : Reply} {s : State}
    (hp : s.cmd.progress = .replying m) (ho : s.cmd.queue.head? = some c) :
    ∃ t, finish (fillMade s) = .next t ∧ Filled c m (takeRemovals s) t := by
  obtain ⟨tail, ht'⟩ : ∃ tail, s.cmd.queue = c :: tail := by
    cases hc : s.cmd.queue with
    | nil => simp [hc] at ho
    | cons x l => exact ⟨l, by simpa [hc] using ho⟩
  refine ⟨_, rfl, ?_⟩
  rw [fillMade_replying hp ht']
  have ht : (takeRemovals s).cmd.queue = c :: tail := by simp [ht']
  have hrem := takeRemovals_removals s
  clear hp ho ht'
  generalize takeRemovals s = u at *
  generalize hw : (u.withCmd _).withTx _ = w
  have hcmd : w.cmd = { u.cmd with
      slots := u.cmd.slots.set c.slot (.filled m), replyQueue := u.cmd.replyQueue ++ [c.slot]
      queue := tail, progress := .notStarted } := by rw [← hw]; rfl
  have hwr : w.removals = [] := by rw [← hw]; exact hrem
  have hx := (Sends.refl (w.withEndings w.endings.tail)).claims (by simp [hcmd]) (by simpa using hwr)
    (w.endings.headD usualEnding)
  simp only [settle]
  revert hx
  generalize takeEndClaims (w.endings.headD usualEnding) (w.withEndings w.endings.tail) = x
  intro hx
  rw [takeRemovals_none (s := x) (by rw [hx.rest]; simpa using hwr)]
  have hs : (dropTelling x).tx.state = x.tx.state := by
    simp only [dropTelling]; split <;> simp
  have hstate : w.tx.state = u.tx.state := by rw [← hw]; rfl
  have hnotices : w.notices = u.notices := by rw [← hw]; rfl
  have hoffered : w.offered = u.offered := by rw [← hw]; rfl
  have hendings : w.endings = u.endings := by rw [← hw]; rfl
  have hxe : x.endings = u.endings.tail := by rw [hx.rest]; simp [hendings]
  have hne : ∀ j : Fin 16, j ≠ c.slot → w.cmd.slots[j] = u.cmd.slots[j] := by
    intro j hj
    have := Fin.val_ne_of_ne hj.symm
    simp [hcmd, this]
  have hblocks : dropTelling x = ((((u.withCmd x.cmd).withTx (dropTelling x).tx).withNotices
      x.notices).withOffered x.offered).withEndings x.endings := by
    have h1 := hx.rest
    have h2 : dropTelling x = x.withTx (dropTelling x).tx := by
      simp only [dropTelling]; split <;> simp
    rw [h2]
    generalize (dropTelling x).tx = y
    rw [hxe]
    conv_lhs => rw [h1]
    rw [← hw]
    rfl
  obtain ⟨l, hl, hn⟩ := hx.taken
  refine { blocks := by simpa using hblocks, reply := ?reply, queue := ?queue, progress := ?progress,
           others := ?others, awaits := ?awaits, resetPending := ?resetPending, counts := ?counts
           waits := ?waits, notices := ?notices, endings := by simpa using hxe }
  case notices =>
    refine ⟨l, by simpa [hoffered] using hl, ?_⟩
    simp only [dropTelling_keeps, hn]
    exact admitAll_notices l (by simpa using hnotices)
  all_goals simp only [dropTelling_keeps]
  all_goals rcases hx.reply with ⟨hc, hi⟩ | ⟨hi, hb, i, rest, r, hq, hf, hc⟩
  all_goals simp only [withEndings_cmd, withEndings_tx] at *
  case reply.inl => left; simp [hc, hcmd]
  case reply.inr =>
    by_cases h : i = c.slot
    · right; subst h
      have : r = m := by simpa [hcmd] using hf.symm
      simp [hc, this]
    · left
      have := Fin.val_ne_of_ne h
      simp [hc, hcmd, this]
  case others.inl => exact fun j hj => .inl (by simpa [hc] using hne j hj)
  case others.inr =>
    intro j hj
    by_cases h : i = j
    · right; subst h
      exact ⟨r, by rw [← hne i hj]; exact hf, by simp [hc]⟩
    · left
      have := Fin.val_ne_of_ne h
      simpa [hc, this] using hne j hj
  case waits.inl => intro _; rw [hs]; exact ⟨hi.trans hstate, by simp [hc, hcmd]⟩
  case waits.inr => exact fun h => absurd (hstate ▸ hi) h
  all_goals simp [hc, hcmd, ht]

/-! ## Execution -/

/-- What a step that executes a command does: its rule, and what is left of the execution. -/
theorem interpretWhen_executes {ready : State → Bool} {k : Byte} {p : Payload}
    {rule : QueuedCommand → State → State} {c : QueuedCommand} {s : State} (go : Extent)
    (h : MayStart s) (ho : s.cmd.queue.head? = some c) (hk : c.kind = k) (hp : c.payload = p)
    (hr : ready s = true) : interpretWhen ready k p rule go s = finish (goOn go (rule c s)) := by
  subst hk hp
  rcases hs : s.cmd.queue with _ | ⟨c', rest⟩
  · simp [hs] at ho
  · obtain rfl : c' = c := by simpa [hs] using ho
    simp [interpretWhen, whileUp, h.up, h.free, h.fresh, hs, hr]

/-- What the interpreter does with a command it executes: its rule, and then what is left. -/
theorem interpret_executes {k : Byte} {p : Payload} {rule : QueuedCommand → State → State}
    {i : Extent → Instr} {c : QueuedCommand} {s : State} (h : Executes i c s) (go : Extent)
    (hf : frameOf (i go) = some (k, p)) :
    interpret k p rule go s = finish (goOn go (rule c s)) := by
  have hcp := h.frame go
  rw [hf] at hcp
  obtain ⟨hk, hp⟩ : k = c.kind ∧ p = c.payload := by simpa using hcp
  exact interpretWhen_executes go h.may.start h.oldest hk.symm hp.symm rfl

/-- The same for a command of the Trigger Table. -/
theorem interpretTrigger_executes {k : Byte} {p : Payload}
    {rule : QueuedCommand → State → State} {i : Extent → Instr} {c : QueuedCommand} {s : State}
    (h : Executes i c s) (go : Extent) (hf : frameOf (i go) = some (k, p)) (hk : k ∈ triggerKinds) :
    interpretTrigger k p rule go s = finish (goOn go (rule c s)) := by
  have hcp := h.frame go
  rw [hf] at hcp
  obtain ⟨hk', hp⟩ : k = c.kind ∧ p = c.payload := by simpa using hcp
  exact interpretWhen_executes go h.may.start h.oldest hk'.symm hp.symm
    (by simp [h.may.table (hk' ▸ hk)])

/-- A command whose rule ends in its answer is answered: at once, or with its reply made. -/
theorem replies_of_answer {i : Extent → Instr} {s u : State} {c : QueuedCommand} {st : Status}
    {f : Payload} (he : ∀ go, exec (i go) s = finish (goOn go (answer c st f u)))
    (ho : u.cmd.queue.head? = some c) : Replies i s c st f u := by
  refine ⟨?_, he .oneClaim⟩
  obtain ⟨t, ht, h⟩ := finish_fillMade (c := c) (m := replyTo c st f) (s := answer c st f u)
    (by simp) (by simpa using ho)
  refine ⟨t, (he .toReply).trans ht, ?_⟩
  rw [answer, takeRemovals_setProgress] at h
  unfold Answered
  generalize takeRemovals u = u at *
  constructor
  · rw [h.blocks]; rfl
  · exact h.reply
  · simpa using h.queue
  · exact h.progress
  · simpa using h.others
  · simpa using h.awaits
  · simpa using h.resetPending
  · simpa using h.counts
  · simpa using h.waits
  · obtain ⟨l, hl, hn⟩ := h.notices
    exact ⟨l, by simpa using hl, hn.trans (admitAll_notices l (by simp))⟩
  · simpa using h.endings

end Sys2Proof.Machine
end

