-- ==== Sys2Proof/Laws/Inputs.lean ====
section
/-! SUPPORT. The input channels' shared operations: the filter's rows, a sample, and the divider. -/

namespace Sys2Proof.Machine

/-! ## One channel of eight -/

@[simp] theorem setChannel_same (n : Fin 8) (c : Channel) (s : State) :
    (setChannel n c s).channels[n.val] = c := by simp [setChannel]

/-- Replacing a channel leaves the others. -/
theorem setChannel_other {n m : Fin 8} (h : m ≠ n) (c : Channel) (s : State) :
    (setChannel n c s).channels[m.val] = s.channels[m.val] := by
  have := Fin.val_ne_of_ne h.symm
  simp [setChannel, this]

@[simp] theorem setChannel_twice (n : Fin 8) (c d : Channel) (s : State) :
    setChannel n d (setChannel n c s) = setChannel n d s := by simp [setChannel]

@[simp] theorem readInput_pin (n : Fin 8) (v : Level) (s : State) :
    (readInput n v s).pins.inputs[n.val] = v := by simp [readInput]

/-! ## The filter (R69) -/

/-- The pin at the settled level: nothing pending. -/
theorem filterSample_settled (f : Nat) (value : Time) (v : Level) :
    filterSample f v value v none = (v, none, none) := by simp [filterSample]

/-- A transition first seen, with a filter. -/
theorem filterSample_seen {f : Nat} {level v : Level} (value : Time) (h : level ≠ v) (hf : f ≠ 0) :
    filterSample f level value v none = (v, some ⟨level, value, 0⟩, none) := by
  simp [filterSample, h, hf]

/-- A transition with filter 0 counts at once. -/
theorem filterSample_at_once {level v : Level} (value : Time) (h : level ≠ v) :
    filterSample 0 level value v none = (level, none, some (level, value)) := by
  simp [filterSample, h]

/-- A pending transition held, short of the filter. -/
theorem filterSample_held {f : Nat} {p : Pending} (value : Time) (v : Level)
    (hf : p.held + 1 < f) : filterSample f p.level value v (some p)
      = (v, some { p with held := p.held + 1 }, none) := by
  have : ¬ f ≤ p.held + 1 := by omega
  simp [filterSample, this]

/-- A pending transition held for the filter counts, with the stamp of its first sight. -/
theorem filterSample_counts {f : Nat} {p : Pending} (value : Time) (v : Level)
    (hf : f ≤ p.held + 1) : filterSample f p.level value v (some p)
      = (p.level, none, some (p.level, p.stamp)) := by
  simp [filterSample, hf]

/-- A pending transition whose level is left is dropped. -/
theorem filterSample_dropped {level : Level} {p : Pending} (f : Nat) (value : Time) (v : Level)
    (h : level ≠ p.level) : filterSample f level value v (some p) = (v, none, none) := by
  simp [filterSample, h]

/-! ## A sample (R68 to R71) -/

/-- A sample of an ARMED or MEASURING channel in which nothing counts. -/
theorem sampleRunning_quiet {n : Fin 8} {v v' : Level} {p p' : Option Pending} {s : State}
    (h : filterSample s.channels[n.val].config.filter s.pins.inputs[n.val] s.time.value v p
      = (v', p', none)) :
    sampleRunning n v p s
      = setChannel n { s.channels[n.val] with run := s.channels[n.val].run.filtered v' p' } s := by
  simp [sampleRunning, h]

/-- A sample of an ARMED or MEASURING channel in which a transition counts. -/
theorem sampleRunning_counts {n : Fin 8} {v v' q : Level} {p p' : Option Pending} {t : Time}
    {s : State}
    (h : filterSample s.channels[n.val].config.filter s.pins.inputs[n.val] s.time.value v p
      = (v', p', some (q, t))) :
    sampleRunning n v p s = takeTransition n q t
      (setChannel n { s.channels[n.val] with run := s.channels[n.val].run.filtered v' p' } s) := by
  simp [sampleRunning, h]

/-- A channel's sample while the part is up, when the channel may take one. -/
theorem execChannelSample_runs {n : Fin 8} {pin : Level} {place : Sampling} {s : State}
    (hp : s.pins.resetActive = false) (h : s.channels[n.val].run ≠ .off)
    (ha : s.channels[n.val].sampling.afterSample (periodEnds s) = some place) :
    execChannelSample n pin s = finish (takeSample n
      (setChannel n { s.channels[n.val] with sampling := place } (readInput n pin s))) := by
  simp [execChannelSample, whileUp, hp, h, ha]

/-- A channel that may take no sample takes none. -/
theorem execChannelSample_waits {n : Fin 8} {s : State} (pin : Level)
    (ha : s.channels[n.val].sampling.afterSample (periodEnds s) = none) :
    execChannelSample n pin s = .next s := by
  simp only [execChannelSample, whileUp, noStep]
  split
  · rfl
  · split
    · rfl
    · simp [ha]

/-- When some channel's sample stands between the two values that its stamp may carry. -/
theorem sampleHoldsValue_iff (s : State) : sampleHoldsValue s = true
    ↔ ∃ n : Fin 8, s.channels[n.val].sampling = .ahead
        ∨ s.channels[n.val].sampling = .due ∧ s.time.ticked = true := by
  simp only [sampleHoldsValue, List.any_eq_true, decide_eq_true_eq, Vector.mem_toList_iff,
    Vector.mem_iff_getElem]
  constructor
  · rintro ⟨_, ⟨i, hi, rfl⟩, h⟩; exact ⟨⟨i, hi⟩, h⟩
  · rintro ⟨n, h⟩; exact ⟨_, ⟨n.val, n.isLt, rfl⟩, h⟩

/-- A SET_TIME that may replace the value, and that the interpreter executes, follows its rule (R8). -/
theorem execSetTime_executes {v : BitVec 48} {c : QueuedCommand} {s : State} (go : Extent)
    (h : Executes (.setTime v ·) c s) (hs : s.time.run = .stopped)
    (hv : v.toNat ≠ Config.maxTime) (hw : sampleHoldsValue s = false) :
    execSetTime v s go = finish (goOn go (answer c .ok []
      ((s.withTime { s.time with value := v.toNat }).withLines
        (mapAll (OutputLine.atNewValue v.toNat) s.lines)))) := by
  have hf := h.frame go
  obtain ⟨hk, hp⟩ : kindSetTime = c.kind ∧ be 6 v.toNat = c.payload := by simpa [frameOf] using hf
  rw [execSetTime, interpretWhen_executes go h.may.start h.oldest hk.symm hp.symm (by simp [hw])]
  simp [hv, hs]

/-- With nothing left over and the usual ending a step ends where it stands. -/
theorem finish_quiet {s : State} (h : Quiet s) : finish s = .next s := by
  simp [finish, settle_quiet h]

/-! ## The divider and the events (R73, R78 to R80) -/

/-- A selected edge below the divisor is counted. -/
theorem divide_below {d k : Nat} (h : k + 1 < d) : divide d k = (false, k + 1) := by
  have : ¬ d ≤ k + 1 := by omega
  simp [divide, this]

/-- A selected edge at the divisor is a divided edge. -/
theorem divide_at {d k : Nat} (h : d ≤ k + 1) : divide d k = (true, 0) := by simp [divide, h]

/-- An event counts, is handed to the Stamp Queue when the channel queues, and to the Trigger Table
always. -/
theorem formEvent_eq (n : Fin 8) (o : StampOffer) (t : Time) (s : State) :
    formEvent n o t s
      = (setChannel n { s.channels[n.val] with events := s.channels[n.val].events + 1 } s).withHanded
        { s.handed with
          offers := s.handed.offers ++ (if s.channels[n.val].config.queue then [o] else [])
          events := s.handed.events ++ [⟨.channel n, t⟩] } := by
  simp only [formEvent]
  cases h : s.channels[n.val].config.queue <;>
    simp [setChannel, offerStamp, offerEvent]

end Sys2Proof.Machine
end

