-- ==== Sys2Proof/Laws/Table.lean ====
section
/-! SUPPORT. The Action Table's shared operations: each said once, so that a proof cites it. -/

namespace Sys2Proof.Machine

/-! ## Table order -/

@[simp] theorem mem_insertRecord (x r : Record) (l : List Record) :
    x ∈ insertRecord r l ↔ x = r ∨ x ∈ l := by
  induction l with
  | nil => simp [insertRecord]
  | cons a l ih =>
    simp only [insertRecord]; split
    · simp
    · simp only [List.mem_cons, ih]; tauto

/-- Inserting a record adds it and nothing else. -/
theorem insertRecord_perm (r : Record) (l : List Record) : (insertRecord r l).Perm (r :: l) := by
  induction l with
  | nil => simp [insertRecord]
  | cons a l ih =>
    simp only [insertRecord]; split
    · exact .refl _
    · exact (ih.cons a).trans (.swap r a l)

@[simp] theorem mem_dropHandle (x : Record) (h : Handle) (l : List Record) :
    x ∈ dropHandle h l ↔ x ∈ l ∧ x.handle ≠ h := by
  simp [dropHandle]

/-- Table order, as an order of natural numbers (R21). -/
theorem Record.before_iff (a b : Record) : a.before b = true ↔
    @LT.lt Nat _ a.due b.due ∨ @Eq Nat a.due b.due ∧ a.standing < b.standing := by
  simp [Record.before]

theorem Record.before_trans {a b c : Record} (h1 : a.before b = true) (h2 : b.before c = true) :
    a.before c = true := by
  rw [Record.before_iff] at *; omega

/-- Two records that differ in their place of admission stand one before the other. -/
theorem Record.before_total {a b : Record} (h : a.standing ≠ b.standing)
    (hb : a.before b = false) : b.before a = true := by
  have hb' : ¬ a.before b = true := by simp [hb]
  rw [Record.before_iff] at *; omega

/-- A record inserted into a table in order leaves it in order (R21). -/
theorem insertRecord_ordered {r : Record} {l : List Record}
    (hl : l.Pairwise (fun a b => a.before b = true)) (hs : ∀ x ∈ l, x.standing ≠ r.standing) :
    (insertRecord r l).Pairwise (fun a b => a.before b = true) := by
  induction l with
  | nil => simp [insertRecord]
  | cons a l ih =>
    obtain ⟨h1, h2⟩ := List.pairwise_cons.1 hl
    simp only [insertRecord]; split
    · rename_i h
      refine List.pairwise_cons.2 ⟨fun x hx => ?_, hl⟩
      rcases List.mem_cons.1 hx with rfl | hx
      · exact h
      · exact Record.before_trans h (h1 x hx)
    · rename_i h
      refine List.pairwise_cons.2 ⟨fun x hx => ?_, ih h2 (fun x hx => hs x (by simp [hx]))⟩
      rcases (mem_insertRecord ..).1 hx with rfl | hx
      · exact Record.before_total (Ne.symm (hs a (by simp))) (by simpa using h)
      · exact h1 x hx

/-! ## Free slots, live handles and the late check -/

/-- Every slot is live when none is free (R19, R25). -/
theorem freeTableSlot_none {s : State} : freeTableSlot s = none ↔
    ∀ k : Fin 64, ∃ r ∈ s.table.records, r.handle.slot = k := by
  simp [freeTableSlot, allTableSlots]

/-- The free slot taken is the lowest one (R19). -/
theorem freeTableSlot_some {s : State} {k : Fin 64} : freeTableSlot s = some k ↔
    (∀ r ∈ s.table.records, r.handle.slot ≠ k)
      ∧ ∀ j : Fin 64, j < k → ∃ r ∈ s.table.records, r.handle.slot = j := by
  simp only [freeTableSlot, allTableSlots, List.find?_eq_some_iff_getElem]
  constructor
  · rintro ⟨h1, i, hi, h2, h3⟩
    simp only [List.getElem_finRange, Fin.cast_mk] at h2
    refine ⟨by simpa using h1, fun j hj => ?_⟩
    have hji : j.val < i := by rw [← h2] at hj; exact hj
    simpa using h3 j.val hji
  · rintro ⟨h1, h2⟩
    refine ⟨by simpa using h1, k.val, by simp, by simp, fun j hj => ?_⟩
    have := h2 ⟨j, Nat.lt_trans hj k.isLt⟩ hj
    simpa using this

/-- Among records with distinct handles a handle names one record. -/
theorem eq_of_handle {l : List Record} (h : l.Pairwise (fun a b => a.handle ≠ b.handle))
    {x y : Record} (hx : x ∈ l) (hy : y ∈ l) (e : x.handle = y.handle) : x = y := by
  induction l with
  | nil => simp at hx
  | cons a l ih =>
    obtain ⟨h1, h2⟩ := List.pairwise_cons.1 h
    rcases List.mem_cons.1 hx with hx' | hx' <;> rcases List.mem_cons.1 hy with hy' | hy'
    · rw [hx', hy']
    · exact absurd e (hx' ▸ h1 y hy')
    · exact absurd e.symm (hy' ▸ h1 x hx')
    · exact ih h2 hx' hy'

/-- A handle is not live when no record has it (R20). -/
theorem findRecord_none {s : State} {h : Handle} : findRecord h s = none ↔
    ∀ r ∈ s.table.records, r.handle ≠ h := by
  simp [findRecord]

/-- The late check makes no record late in STOPPED or ahead of its due time, and otherwise follows the
late policy (R26). -/
theorem lateCheck_eq (p : LatePolicy) (due : Time) (s : State) : lateCheck p due s =
    if s.time.run ≠ .stopped ∧ due ≤ s.time.value then
      (match p with | .skip => none | .fire => some (s.time.value + 1, true))
    else some (due, false) := by
  simp only [lateCheck]
  by_cases h1 : s.time.run = .stopped
  · simp [h1]
  · by_cases h2 : due ≤ s.time.value
    · have : ¬ s.time.value < due := Nat.not_lt.2 h2
      cases p <;> simp [h1, h2, this]
    · have : s.time.value < due := Nat.not_le.1 h2
      simp [h1, h2, this]

/-! ## Removal -/

/-- The table after a removal (R20, R34). -/
@[simp] theorem removeRecord_table (r : Record) (e : EndReason) (t : Time) (s : State) :
    (removeRecord r e t s).table = { s.table with
      records := dropHandle r.handle s.table.records
      gens := s.table.gens.set r.handle.slot (nextGeneration s.table.gens[r.handle.slot]) } := by
  simp only [removeRecord]; split <;> simp

/-- The offers that wait after a removal: ENDED is offered unless the policy is NONE (R35, R36). -/
theorem removeRecord_offered (r : Record) (e : EndReason) (t : Time) (s : State) :
    (removeRecord r e t s).offered = if r.body.report = .none then s.offered
      else s.offered ++ [⟨.ended r.handle e, t, r.body.label⟩] := by
  cases h : r.body.report <;>
    simp [removeRecord, offerNotice, h, ReportPolicy.notifies, reportToAwaits]

/-- The triggers after a removal: only the origin's list loses the handle (R112). -/
theorem removeRecord_use (r : Record) (e : EndReason) (t : Time) (s : State) (k : Fin 16) :
    (removeRecord r e t s).triggers.slots[k].use = if r.origin = .trigger k
      then s.triggers.slots[k].use.dropInstance r.handle else s.triggers.slots[k].use := by
  have : ∀ u : State, (reportRemoval r.handle r.origin u).triggers.slots[k].use
      = if r.origin = .trigger k then u.triggers.slots[k].use.dropInstance r.handle
        else u.triggers.slots[k].use := by
    intro u
    simp only [reportRemoval]
    cases r.origin with
    | host => simp
    | trigger j =>
      by_cases hj : j = k
      · subst hj; simp [setTriggerSlot]
      · have := Fin.val_ne_of_ne hj
        simp [setTriggerSlot, hj, this]
  simp only [removeRecord]
  split <;> simp only [reportToAwaits_keeps, this] <;> simp

/-- A removal leaves the trigger claim and every miss counter. -/
@[simp] theorem removeRecord_claim (r : Record) (e : EndReason) (t : Time) (s : State) :
    (removeRecord r e t s).triggers.claim = s.triggers.claim
    ∧ ∀ k : Fin 16, (removeRecord r e t s).triggers.slots[k].misses
        = s.triggers.slots[k].misses := by
  have : ∀ u : State, (reportRemoval r.handle r.origin u).triggers.claim = u.triggers.claim
      ∧ ∀ k : Fin 16, (reportRemoval r.handle r.origin u).triggers.slots[k].misses
        = u.triggers.slots[k].misses := by
    intro u
    simp only [reportRemoval]
    cases r.origin with
    | host => simp
    | trigger j =>
      refine ⟨rfl, fun k => ?_⟩
      by_cases hj : j = k
      · subst hj; simp [setTriggerSlot]
      · have := Fin.val_ne_of_ne hj
        simp [setTriggerSlot, this]
  simp only [removeRecord]
  split <;> simp only [reportToAwaits_keeps, this] <;> simp

/-- The removal reports that wait after a removal (R168). -/
@[simp] theorem removeRecord_removals (r : Record) (e : EndReason) (t : Time) (s : State) :
    (removeRecord r e t s).removals = s.removals ++ [⟨r.handle, e⟩] := by
  simp only [removeRecord]; split <;> simp [reportToAwaits]

/-- The removal reports that wait after removals one after another (R168). -/
theorem removeRecords_removals (e : EndReason) (t : Time) (l : List Record) (s : State) :
    (removeRecords e t l s).removals = s.removals ++ l.map (fun r => ⟨r.handle, e⟩) := by
  induction l generalizing s with
  | nil => simp [removeRecords]
  | cons a l ih => simp [removeRecords, ih]

/-- The table after removals one after another: the records with one of the handles are gone. -/
theorem removeRecords_records (e : EndReason) (t : Time) (l : List Record) (s : State) :
    (removeRecords e t l s).table.records
      = s.table.records.filter (fun x => decide (∀ r ∈ l, x.handle ≠ r.handle)) := by
  induction l generalizing s with
  | nil => simp [removeRecords]
  | cons a l ih =>
    rw [removeRecords, ih]
    simp only [removeRecord_table, dropHandle, List.filter_filter]
    apply List.filter_congr
    intro x _
    simp only [List.mem_cons, forall_eq_or_imp]
    rw [Bool.eq_iff_iff]; simp [and_comm]

end Sys2Proof.Machine
end

