-- ==== Sys2Proof/Laws/Blocks.lean ====
section
/-! SUPPORT. Shared operations of the lines, the late walk, the triggers, the report stream and the
command block: each said once, so that a proof cites it. -/

namespace Sys2Proof.Machine

/-! ## Lines -/

/-- One function applied to every place of a family. -/
@[simp] theorem mapAll_getElem {α β : Type} {n : Nat} (f : α → β) (v : Vector α n) (i : Fin n) :
    (mapAll f v)[i] = f v[i] := by simp [mapAll]

/-! ## The late walk (R37) -/

/-- The table after one record of the walk: it is gone, or stands again due at v + 1. -/
theorem mem_walkRecord (v : Time) (a x : Record) (s : State) :
    x ∈ (walkRecord v a s).table.records ↔
      (x ∈ s.table.records ∧ x.handle ≠ a.handle)
        ∨ (a.body.late = .fire ∧ x = { a with due := v + 1, lateFlag := true }) := by
  simp only [walkRecord]
  cases ha : a.body.late <;> simp
  tauto

/-- The table after a walk over records of distinct handles. -/
theorem mem_walkAll (v : Time) (l : List Record) (s : State)
    (hp : l.Pairwise (fun a b => a.handle ≠ b.handle)) (x : Record) :
    x ∈ (walkAll v l s).table.records ↔
      (x ∈ s.table.records ∧ ∀ r ∈ l, x.handle ≠ r.handle)
        ∨ ∃ r ∈ l, r.body.late = .fire ∧ x = { r with due := v + 1, lateFlag := true } := by
  induction l generalizing s with
  | nil => simp [walkAll]
  | cons a l ih =>
    obtain ⟨h1, h2⟩ := List.pairwise_cons.1 hp
    rw [walkAll, ih _ h2, mem_walkRecord]
    constructor
    · rintro (⟨h3 | ⟨h3, h4⟩, h5⟩ | ⟨r, hr, h⟩)
      · exact .inl ⟨h3.1, by simpa using ⟨h3.2, h5⟩⟩
      · exact .inr ⟨a, by simp, h3, h4⟩
      · exact .inr ⟨r, by simp [hr], h⟩
    · rintro (⟨h3, h4⟩ | ⟨r, hr, h3, h4⟩)
      · exact .inl ⟨.inl ⟨h3, h4 a (by simp)⟩, fun r hr => h4 r (by simp [hr])⟩
      · rcases List.mem_cons.1 hr with rfl | hr
        · refine .inl ⟨.inr ⟨h3, h4⟩, fun r' hr' => ?_⟩
          rw [h4]
          exact h1 r' hr'
        · exact .inr ⟨r, hr, h3, h4⟩

/-- The late walk leaves the command queue. -/
@[simp] theorem lateWalk_queue (s : State) : (lateWalk s).cmd.queue = s.cmd.queue := by
  have : ∀ (v : Time) (l : List Record) (s : State), (walkAll v l s).cmd.queue = s.cmd.queue := by
    intro v l
    induction l with
    | nil => intro s; rfl
    | cons r l ih =>
      intro s; rw [walkAll, ih]
      simp only [walkRecord]; split <;> simp
  exact this _ _ s

/-! ## Channels -/

/-- A transition leaves the other channels (R70). -/
theorem takeTransition_other {n m : Fin 8} (h : m ≠ n) (q : Level) (t : Time) (s : State) :
    (takeTransition n q t s).channels[m.val] = s.channels[m.val] := by
  have hf : ∀ o t s, (formEvent n o t s).channels[m.val] = s.channels[m.val] := by
    intro o t s; rw [formEvent_eq]; simp [setChannel_other h]
  have hp : ∀ t s, (periodEdge n t s).channels[m.val] = s.channels[m.val] := by
    intro t s
    cases hr : s.channels[n.val].run <;> simp [periodEdge, hr, hf, setChannel_other h]
  cases hm : s.channels[n.val].config.mode with
  | off => simp [takeTransition, hm]
  | width =>
    cases hr : s.channels[n.val].run <;> simp [takeTransition, hm, widthEdge, hr]
    all_goals split <;> simp [hf, setChannel_other h]
  | _ =>
    simp only [takeTransition, hm, edgeEvent, Fin.getElem_fin]
    split
    · split <;> simp [hf, hp, setChannel_other h]
    · rfl

/-- A transition leaves the configuration and the place of the samples of its own channel, and the ACKs
handed over (R68, R70). -/
theorem takeTransition_kept (n : Fin 8) (q : Level) (t : Time) (s : State) :
    (takeTransition n q t s).channels[n.val].config = s.channels[n.val].config
    ∧ (takeTransition n q t s).channels[n.val].sampling = s.channels[n.val].sampling
    ∧ (takeTransition n q t s).handed.acks = s.handed.acks := by
  have hf : ∀ o t s, (formEvent n o t s).channels[n.val].config = s.channels[n.val].config
      ∧ (formEvent n o t s).channels[n.val].sampling = s.channels[n.val].sampling
      ∧ (formEvent n o t s).handed.acks = s.handed.acks := by
    intro o t s; rw [formEvent_eq]; simp
  have hp : ∀ t s, (periodEdge n t s).channels[n.val].config = s.channels[n.val].config
      ∧ (periodEdge n t s).channels[n.val].sampling = s.channels[n.val].sampling
      ∧ (periodEdge n t s).handed.acks = s.handed.acks := by
    intro t s
    cases hr : s.channels[n.val].run <;> simp [periodEdge, hr, hf]
  cases hm : s.channels[n.val].config.mode with
  | off => simp [takeTransition, hm]
  | width =>
    cases hr : s.channels[n.val].run <;> simp [takeTransition, hm, widthEdge, hr]
    all_goals split <;> simp [hf]
  | _ =>
    simp only [takeTransition, hm, edgeEvent, Fin.getElem_fin]
    split
    · split <;> simp [hf, hp]
    · simp

/-! ## Triggers (R104) -/

/-- A visit passes over slots that do not respond. -/
theorem visitSlots_skip (e : SourceEvent) (s : State) (a b : List (Fin 16))
    (h : ∀ j ∈ a, ¬ ∃ d n l, s.triggers.slots[j].use = .defined d .armed n l
      ∧ d.source = e.source) : visitSlots e (a ++ b) s = visitSlots e b s := by
  induction a with
  | nil => rfl
  | cons k a ih =>
    have hk := h k (by simp)
    simp only [List.cons_append, visitSlots]
    rw [ih (fun j hj => h j (by simp [hj]))]
    split
    · rename_i d n l hu
      have : d.source ≠ e.source := fun hh => hk ⟨d, n, l, hu, hh⟩
      simp [this]
    all_goals rfl

/-- The slots in number order, about one of them. -/
theorem allTriggerSlots_split (k : Fin 16) : allTriggerSlots
    = allTriggerSlots.take k.val ++ k :: allTriggerSlots.drop (k.val + 1) := by
  revert k; decide

/-! ## The report stream -/

/-- Telling the transmitter changes its telling alone (R132, R189). -/
theorem tellIfEligible_eq (s : State) :
    tellIfEligible s = s.withTx { s.tx with told := s.tx.told || eligible s } := by
  simp only [tellIfEligible]
  split
  · rename_i h; simp [h]
  · rename_i h; simp only [h, Bool.or_false]; rfl

/-- The window split at the first report of a number (R140). -/
theorem splitWindow_append {q : Byte} {r : Report} (hr : r.sequence = q) (b a : List Report)
    (hb : ∀ x ∈ b, x.sequence ≠ q) : splitWindow q (b ++ r :: a) = some (b ++ [r], a) := by
  induction b with
  | nil => simp [splitWindow, hr]
  | cons x b ih =>
    simp [splitWindow, hb x (by simp), ih (fun y hy => hb y (by simp [hy]))]

/-- No report of the window has the number. -/
theorem splitWindow_none {q : Byte} (w : List Report) (h : ∀ x ∈ w, x.sequence ≠ q) :
    splitWindow q w = none := by
  induction w with
  | nil => rfl
  | cons x w ih => simp [splitWindow, h x (by simp), ih (fun y hy => h y (by simp [hy]))]

/-- The oldest mark is the one cleared (R138). -/
theorem clearFirstMark_append {r : Report} (hr : r.marked = true) (b a : List Report)
    (hb : ∀ x ∈ b, x.marked = false) :
    clearFirstMark (b ++ r :: a) = b ++ { r with marked := false } :: a := by
  induction b with
  | nil => simp [clearFirstMark, hr]
  | cons x b ih =>
    simp [clearFirstMark, hb x (by simp), ih (fun y hy => hb y (by simp [hy]))]

/-! ## RESET (R173) -/

/-- Aborting commands appends their slots to the reply queue and leaves the queue and awaits. -/
@[simp] theorem abortCommands_cmd (l : List QueuedCommand) (s : State) :
    (abortCommands l s).cmd.replyQueue = s.cmd.replyQueue ++ l.map QueuedCommand.slot
    ∧ (abortCommands l s).cmd.queue = s.cmd.queue
    ∧ (abortCommands l s).cmd.awaits = s.cmd.awaits := by
  induction l generalizing s with
  | nil => simp [abortCommands]
  | cons a l ih => simp [abortCommands, ih]

/-- A slot that no aborted command holds is untouched. -/
theorem abortCommands_other {l : List QueuedCommand} {s : State} {i : Fin 16}
    (h : ∀ a ∈ l, a.slot ≠ i) : (abortCommands l s).cmd.slots[i] = s.cmd.slots[i] := by
  induction l generalizing s with
  | nil => rfl
  | cons a l ih =>
    have := Fin.val_ne_of_ne (h a (by simp))
    rw [abortCommands, ih (fun x hx => h x (by simp [hx]))]
    simp [this]

/-- An aborted command's slot holds ABORTED, when the commands hold slots of their own. -/
theorem abortCommands_own {l : List QueuedCommand} {s : State}
    (hn : (l.map QueuedCommand.slot).Nodup) {a : QueuedCommand} (ha : a ∈ l) :
    (abortCommands l s).cmd.slots[a.slot] = .filled (replyTo a .aborted []) := by
  induction l generalizing s with
  | nil => simp at ha
  | cons b l ih =>
    rw [List.map_cons] at hn
    obtain ⟨h1, h2⟩ := List.nodup_cons.1 hn
    rcases List.mem_cons.1 ha with rfl | ha
    · rw [abortCommands,
        abortCommands_other (fun x hx e => h1 (by rw [← e]; exact List.mem_map_of_mem hx))]
      simp
    · exact ih h2 ha

end Sys2Proof.Machine
end

