-- ==== Sys2Proof/Laws/Operands.lean ====
section
/-! SUPPORT. Reading fields: what each reader answers on the values its rule accepts, and that a command
with several fields is read exactly when it is well formed. -/

namespace Sys2Proof.Machine

/-! ## Counts -/

/-- A count goes up by one and stays at its largest value. -/
theorem satInc_toNat {w : Nat} (x : BitVec w) :
    (satInc x).toNat = min (2 ^ w - 1) (x.toNat + 1) := by
  have hx := x.isLt
  simp only [satInc]
  split
  · rename_i h; subst h; simp [BitVec.toNat_allOnes]
  · rename_i h
    have : x.toNat ≠ 2 ^ w - 1 := fun e => h (BitVec.eq_of_toNat_eq (by simp [BitVec.toNat_allOnes, e]))
    rw [BitVec.toNat_add]
    rcases Nat.eq_zero_or_pos w with h0 | h0
    · subst h0; have : x.toNat = 0 := by omega
      simp_all
    · have : 1 < 2 ^ w := Nat.one_lt_two_pow h0.ne'
      have h2 : (1 : BitVec w).toNat = 1 := by simp [Nat.mod_eq_of_lt this]
      rw [h2, Nat.mod_eq_of_lt (by omega)]; omega

/-! ## Single fields -/

/-- A number that names one of n places is read as that place. -/
theorem readIndex_of {n : Nat} {b : Byte} {i : Fin n} (h : b.toNat = i.val) :
    readIndex n b = some i := by
  simp [readIndex, h]

/-- A number below n is read, and no other. -/
@[simp] theorem readIndex_isSome (n : Nat) (b : Byte) :
    (readIndex n b).isSome = decide (b.toNat < n) := by
  simp only [readIndex]; split <;> simp_all

/-- 0 and 1 are read as yes or no. -/
theorem readYesNo_of {b : Byte} (h : b.toNat ≤ 1) : readYesNo b = some (b == 1) := by
  have : b = 0 ∨ b = 1 := by bv_omega
  rcases this with rfl | rfl <;> rfl

/-- A byte is 0, 1, or more. -/
theorem byte_cases (b : Byte) : b = 0 ∨ b = 1 ∨ 1 < b.toNat := by
  rcases Nat.lt_or_ge 1 b.toNat with h | h
  · exact .inr (.inr h)
  · have : b = 0 ∨ b = 1 := by bv_omega
    rcases this with rfl | rfl <;> simp

@[simp] theorem readYesNo_isSome (b : Byte) : (readYesNo b).isSome = decide (b.toNat ≤ 1) := by
  rcases byte_cases b with rfl | rfl | h
  · rfl
  · rfl
  · simp only [readYesNo]; split <;> simp_all

/-- 0 and 1 are read as a level. -/
theorem readLevel_of {b : Byte} (h : b.toNat ≤ 1) :
    readLevel b = some (if b = 0 then .low else .high) := by
  have : b = 0 ∨ b = 1 := by bv_omega
  rcases this with rfl | rfl <;> rfl

@[simp] theorem readLevel_isSome (b : Byte) : (readLevel b).isSome = decide (b.toNat ≤ 1) := by
  rcases byte_cases b with rfl | rfl | h
  · rfl
  · rfl
  · simp only [readLevel]; split <;> simp_all

/-- 0 and 1 are read as a tick source. -/
theorem readSource_of {b : Byte} (h : b.toNat ≤ 1) :
    readSource b = some (if b = 0 then .internal else .refin) := by
  have : b = 0 ∨ b = 1 := by bv_omega
  rcases this with rfl | rfl <;> rfl

@[simp] theorem readSource_isSome (b : Byte) : (readSource b).isSome = decide (b.toNat ≤ 1) := by
  rcases byte_cases b with rfl | rfl | h
  · rfl
  · rfl
  · simp only [readSource]; split <;> simp_all

/-- 0 and 1 are read as a line mode. -/
theorem readLineMode_of {b : Byte} (h : b.toNat ≤ 1) :
    readLineMode b = some (if b = 0 then .direct else .scheduled) := by
  have : b = 0 ∨ b = 1 := by bv_omega
  rcases this with rfl | rfl <;> rfl

@[simp] theorem readLineMode_isSome (b : Byte) :
    (readLineMode b).isSome = decide (b.toNat ≤ 1) := by
  rcases byte_cases b with rfl | rfl | h
  · rfl
  · rfl
  · simp only [readLineMode]; split <;> simp_all

/-- 0 and 1 are read as a late policy. -/
theorem readLate_of {b : Byte} (h : b.toNat ≤ 1) :
    readLate b = some (if b = 0 then .fire else .skip) := by
  have : b = 0 ∨ b = 1 := by bv_omega
  rcases this with rfl | rfl <;> rfl

@[simp] theorem readLate_isSome (b : Byte) : (readLate b).isSome = decide (b.toNat ≤ 1) := by
  rcases byte_cases b with rfl | rfl | h
  · rfl
  · rfl
  · simp only [readLate]; split <;> simp_all

/-- 0 and 1 are read as an at-limit policy. -/
@[simp] theorem readAtLimit_isSome (b : Byte) : (readAtLimit b).isSome = decide (b.toNat ≤ 1) := by
  rcases byte_cases b with rfl | rfl | h
  · rfl
  · rfl
  · simp only [readAtLimit]; split <;> simp_all

/-- A number in its range is read as itself. -/
theorem readRange_of {lo hi x : Nat} (h : lo ≤ x ∧ x ≤ hi) : readRange lo hi x = some x := by
  simp [readRange, h]

@[simp] theorem readRange_isSome (lo hi x : Nat) :
    (readRange lo hi x).isSome = decide (lo ≤ x ∧ x ≤ hi) := by
  simp only [readRange]; split <;> simp_all

/-- A handle field is read exactly when it is in range. -/
@[simp] theorem readHandle_isSome (gen slot : Byte) :
    (readHandle gen slot).isSome = handleOk gen slot := by
  simp only [readHandle, handleOk]
  split
  · simp_all
  · simp only [Option.isSome_map, readIndex_isSome]; simp_all; omega

/-- A report policy is read exactly when it is in range. -/
@[simp] theorem readReport_isSome (report n : Byte) :
    (readReport report n).isSome = reportOk report n := by
  simp only [readReport, reportOk]
  split <;> rename_i h
  · simp [h]
  · simp [h]
  · simp [h]
  · split <;> simp_all
  · have h3 : report.toNat ≠ 3 := by assumption
    have h2 : report.toNat ≠ 2 := by assumption
    have h1 : report.toNat ≠ 1 := by assumption
    have h0 : report.toNat ≠ 0 := by assumption
    have : ¬ report.toNat ≤ 2 := by omega
    simp [h3, this]

/-- The kind's own fields are read exactly when they are in range. -/
theorem readAction_isSome (f : TemplateFields) :
    (readAction f).isSome = decide (f.kind.toNat ≤ 5 ∧ (f.kind.toNat ≤ 3 → f.target.toNat ≤ 7)
      ∧ (f.kind.toNat = 4 → f.target.toNat ≤ 3) ∧ (f.kind.toNat = 3 → f.width ≠ 0)) := by
  simp only [readAction]
  split <;> rename_i h
  · simp [h]; omega
  · simp [h]; omega
  · simp [h]; omega
  · split <;> simp_all; omega
  · simp [h]; omega
  · simp [h]
  · have h5 : f.kind.toNat ≠ 5 := by assumption
    have h4 : f.kind.toNat ≠ 4 := by assumption
    have h3 : f.kind.toNat ≠ 3 := by assumption
    have h2 : f.kind.toNat ≠ 2 := by assumption
    have h1 : f.kind.toNat ≠ 1 := by assumption
    have h0 : f.kind.toNat ≠ 0 := by assumption
    have : ¬ f.kind.toNat ≤ 5 := by omega
    simp [this]

/-! ## The commands with several fields -/

/-- The action's fields are read exactly when they are in range (R23). -/
@[simp] theorem readBody_isSome (f : TemplateFields) : (readBody f).isSome = actionOk f := by
  have ha := readAction_isSome f
  have hr := readReport_isSome f.report f.n
  have hl := readLate_isSome f.late
  have : actionOk f = ((readAction f).isSome && (readReport f.report f.n).isSome
      && (readLate f.late).isSome) := by
    rw [ha, hr, hl]; simp only [actionOk, Bool.decide_and, Bool.and_assoc]
  rw [this]
  simp only [readBody]
  cases readAction f <;> cases readReport f.report f.n <;> cases readLate f.late <;> rfl

/-- A CHANNEL's fields are read exactly when they are in range (R81). -/
theorem readChannel_isSome (f : ChannelFields) (pin : Level) (go : Extent) :
    (readChannel f).isSome = wellFormed (.channel f pin go) := by
  have hm : ∀ m, readChannelMode f.mode = some m → f.mode.toNat ≤ 3 ∧ (m = .width ↔ f.mode.toNat = 2) := by
    intro m h; simp only [readChannelMode] at h; split at h <;> simp_all <;> subst h <;> simp
  have hn : readChannelMode f.mode = none → 3 < f.mode.toNat := by
    intro h; simp only [readChannelMode] at h; split at h <;> simp_all; omega
  have he : ∀ m, (m = ChannelMode.width ↔ f.mode.toNat = 2) →
      (readEdge m f.edge).isSome = edgeOk f.mode f.edge := by
    intro m h
    by_cases h2 : f.mode.toNat = 2
    · obtain rfl := h.2 h2
      simp only [edgeOk, h2, if_true, readEdge]
      split <;> simp_all
    · simp only [edgeOk, h2, if_false]
      have hm : m ≠ .width := fun e => h2 (h.1 e)
      simp only [readEdge]
      split <;> simp_all
      omega
  have hd : ∀ m, (m = ChannelMode.width ↔ f.mode.toNat = 2) →
      (readDivisor m f.divisor).isSome
        = decide (f.divisor ≠ 0 ∧ (f.mode.toNat = 2 → f.divisor = 1)) := by
    intro m h
    simp only [readDivisor]
    split
    · rename_i h'; rcases h' with h' | h' <;> simp_all
    · rename_i h'; simp only [not_or, not_and, not_not] at h'
      simp only [Option.isSome_some]; symm; rw [decide_eq_true_iff]
      exact ⟨h'.1, fun e => h'.2 (h.2 e)⟩
  have hf := readRange_isSome 0 15 f.filter.toNat
  have hq := readYesNo_isSome f.queue
  simp only [readChannel, wellFormed]
  by_cases hc : f.channel.toNat < 8
  · have hc' : f.channel.toNat ≤ 7 := by omega
    simp only [readIndex, hc, dite_true, hc', true_and]
    cases h : readChannelMode f.mode with
    | none => have := hn h; simp; omega
    | some m =>
      obtain ⟨h3, h2⟩ := hm m h
      simp only
      have : decide (f.mode.toNat ≤ 3) = true := by simpa using h3
      rw [this, ← he m h2, ← hd m h2]
      have : decide (f.filter.toNat ≤ 15 ∧ f.queue.toNat ≤ 1)
          = ((readRange 0 15 f.filter.toNat).isSome && (readYesNo f.queue).isSome) := by
        rw [hf, hq]; simp
      rw [this]
      cases readEdge m f.edge <;> cases readDivisor m f.divisor
        <;> cases readRange 0 15 f.filter.toNat <;> cases readYesNo f.queue <;> rfl
  · have hc' : ¬ f.channel.toNat ≤ 7 := by omega
    simp [readIndex, hc, hc']

/-- A WINDOW's fields are read exactly when they are in range (R98). -/
theorem readWindow_isSome (input : Byte) (low high : BitVec 16) (queue : Byte) (go : Extent) :
    (readWindow input low high queue).isSome = wellFormed (.window input low high queue go) := by
  have h1 := readIndex_isSome 4 input
  have h2 := readRange_isSome 0 4095 low.toNat
  have h3 := readRange_isSome low.toNat 4095 high.toNat
  have h4 := readYesNo_isSome queue
  have : wellFormed (.window input low high queue go) = ((readIndex 4 input).isSome
      && (readRange 0 4095 low.toNat).isSome && (readRange low.toNat 4095 high.toNat).isSome
      && (readYesNo queue).isSome) := by
    rw [h1, h2, h3, h4]; simp only [wellFormed]
    rw [Bool.eq_iff_iff]; simp only [decide_eq_true_iff, Bool.and_eq_true]; omega
  rw [this]
  simp only [readWindow]
  cases readIndex 4 input <;> cases readRange 0 4095 low.toNat
    <;> cases readRange low.toNat 4095 high.toNat <;> cases readYesNo queue <;> rfl

/-- A trigger's source is read exactly when it is in range (R114). -/
@[simp] theorem readEventSource_isSome (f : TriggerFields) :
    (readEventSource f).isSome = sourceOk f := by
  simp only [readEventSource, sourceOk]
  generalize f.sourceKind.toNat = kind
  rcases kind with _ | _ | _ | kind
  · simp; omega
  · show _ = decide (f.sourceNumber.toNat ≤ 3 ∧ 1 ≤ f.sourceZone.toNat ∧ f.sourceZone.toNat ≤ 3)
    have h1 := readIndex_isSome 4 f.sourceNumber
    have h2 : (readZone f.sourceZone).isSome
        = decide (1 ≤ f.sourceZone.toNat ∧ f.sourceZone.toNat ≤ 3) := by
      simp only [readZone]; split <;> simp_all; omega
    have : decide (f.sourceNumber.toNat ≤ 3 ∧ 1 ≤ f.sourceZone.toNat ∧ f.sourceZone.toNat ≤ 3)
        = ((readIndex 4 f.sourceNumber).isSome && (readZone f.sourceZone).isSome) := by
      rw [h1, h2, Bool.eq_iff_iff]; simp only [decide_eq_true_iff, Bool.and_eq_true]; omega
    rw [this]
    cases readIndex 4 f.sourceNumber <;> cases readZone f.sourceZone <;> rfl
  · show (if f.sourceLabel = 0 then none else some _).isSome = decide (f.sourceLabel ≠ 0)
    split <;> simp_all
  · rfl

/-- A TRIGGER's fields are read exactly when they are in range (R114). -/
theorem readTriggerDef_isSome (f : TriggerFields) (go : Extent) :
    (readTriggerDef f).isSome = wellFormed (.trigger f go) := by
  have h1 := readIndex_isSome 16 f.slot
  have h2 := readEventSource_isSome f
  have h3 := readRange_isSome 1 8 f.limit.toNat
  have h4 := readAtLimit_isSome f.atLimit
  have h5 := readBody_isSome f.template
  have : wellFormed (.trigger f go) = ((readIndex 16 f.slot).isSome && (readEventSource f).isSome
      && decide (f.delay ≠ 0) && (readRange 1 8 f.limit.toNat).isSome
      && (readAtLimit f.atLimit).isSome && (readBody f.template).isSome) := by
    rw [h1, h2, h3, h4, h5]; simp only [wellFormed]
    rw [Bool.eq_iff_iff]; simp only [decide_eq_true_iff, Bool.and_eq_true]
    constructor
    · rintro ⟨⟨⟨⟨a, b⟩, c⟩, d⟩, e⟩
      exact ⟨⟨⟨⟨⟨by omega, b⟩, c⟩, by omega⟩, by omega⟩, e⟩
    · rintro ⟨⟨⟨⟨⟨a, b⟩, c⟩, d⟩, d'⟩, e⟩
      exact ⟨⟨⟨⟨by omega, b⟩, c⟩, by omega⟩, e⟩
  rw [this]
  simp only [readTriggerDef]
  cases readIndex 16 f.slot <;> cases readEventSource f <;> cases readRange 1 8 f.limit.toNat
    <;> cases readAtLimit f.atLimit <;> cases readBody f.template <;> try rfl
  all_goals simp
  all_goals split <;> simp_all

end Sys2Proof.Machine
end

