-- ==== Sys2Proof/Tests/Slice0.lean ====
section
/-! SUPPORT. Tests of single steps, with expected results from the spec's tables and worked sequences
(the section stands over each group), the smoke test of `wellFormed`, and the states the witnesses of
Sys2Proof/Tests/Witnesses.lean use. -/

-- One theorem at a time: kernel checks that wait for each other would each hold a thread of the joined text.
set_option Elab.async false

namespace Sys2Proof.Tests

open Sys2Proof Sys2Proof.Machine

/-! ## Small states -/

/-- The part some time after power-on: READY's frame is under way, RXD has been seen HIGH and nothing
waits. -/
def up : State :=
  { State.reset with
    notices := ⟨[], 0, 0⟩
    rx := { Receiver.reset with waitHigh := false }
    tx := ⟨.sending .notice (noticeFrame (Notice.readyFor .power)), false⟩ }

/-- `up` once READY's frame has ended. -/
def quiet : State := { up with tx := ⟨.idle, false⟩ }

/-- The timebase runs at v. -/
def runAt (v : Time) (s : State) : State :=
  { s with time := { s.time with value := v, run := .running } }

/-- The timebase stands at v, in STOPPED. -/
def stopAt (v : Time) (s : State) : State := { s with time := { s.time with value := v } }

/-- One line stands so. -/
def lineAs (n : Fin 8) (l : OutputLine) (s : State) : State := { s with lines := s.lines.set n l }

/-- One channel stands so. -/
def channelAs (n : Fin 8) (x : Channel) (s : State) : State :=
  { s with channels := s.channels.set n x }

/-- The Action Table holds these records. -/
def holding (rs : List Record) (s : State) : State :=
  { s with table := { s.table with records := rs, nextStanding := rs.length } }

/-- One trigger slot stands so. -/
def slotAs (k : Fin 16) (x : TriggerSlot) (s : State) : State :=
  { s with triggers := { s.triggers with slots := s.triggers.slots.set k x } }

/-- The report stream stands so. -/
def streamAs (x : ReportStream) (s : State) : State := { s with stream := x }

/-- The Stamp Queue holds these entries. -/
def stamped (es : List StampEntry) (s : State) : State :=
  { s with stamps := { s.stamps with entries := es } }

/-- These claims are handed over and not yet taken. -/
def handing (h : Handovers) (s : State) : State := { s with handed := h }

/-- A host record of generation 1. -/
def recordOf (slot : Fin 64) (a : Action) (due : Time) (report : ReportPolicy)
    (label : Option Label) (standing : Nat) : Record :=
  { handle := ⟨1, slot⟩, body := ⟨a, none, report, .fire, label⟩, due := due, remaining := 1
    origin := .host, ordinal := 0, lateFlag := false, standing := standing }

/-- The command that carries i, with tag 1 and reply slot 0. -/
def queuedAs (i : Extent → Instr) : QueuedCommand :=
  match frameOf (i .toReply) with
  | some (k, p) => ⟨1, k, p, 0⟩
  | none => ⟨1, 0, [], 0⟩

/-- That command is the only one queued. -/
def asked (i : Extent → Instr) (s : State) : State :=
  { s with cmd := { s.cmd with queue := [queuedAs i], slots := s.cmd.slots.set 0 .reserved } }

/-- The state a step answers, when it answers a next one. -/
def after (i : Instr) (s : State) : State :=
  match exec i s with
  | .next t => t
  | _ => s

/-- The state after the command that carries i has been executed and answered. -/
def did (i : Extent → Instr) (s : State) : State := after (i .toReply) (asked i s)

/-- The reply it left in slot 0. -/
def reply (i : Extent → Instr) (s : State) : Payload :=
  match (did i s).cmd.slots[0] with
  | .filled r | .sending r => r.payload
  | _ => []

/-- A SCHEDULE of no repeat, no label and late policy FIRE. -/
def scheduleOf (kind target : Byte) (width : BitVec 16) (mode : Byte) (due : BitVec 48)
    (report : Byte) : Extent → Instr :=
  (.schedule ⟨⟨kind, target, width, 0, 0, report, 0, 0, 0⟩, mode, due⟩ ·)

/-- A stamp entry, admitted at moment 0. -/
def entryOf (state : EntryState) (t : Time) : StampEntry :=
  ⟨state, ⟨.edge 0 .rising, t, none⟩, 0⟩

/-- The stream ON with batch 4, hold 10, interval 100, retry limit 2, this window and next number. -/
def streamOn (window : List Report) (timer : Option Moment) (retries : Nat) (next : Byte) :
    ReportStream :=
  ⟨.on, 4, 10, 100, 2, window, retries, timer, next, 0⟩

/-! ## Every check of `wellFormed` refuses an ill-formed term -/

theorem test_reset_option_2_is_ill_formed : inRange (.reset 2 ·) = false := by decide
theorem test_clock_source_2_is_ill_formed : inRange (.clock 2 1 ·) = false := by decide
theorem test_clock_prescaler_3_is_ill_formed : inRange (.clock 0 3 ·) = false := by decide
theorem test_set_time_at_end_is_ill_formed : inRange (.setTime 0xFFFFFFFFFFFF ·) = false := by
  decide
theorem test_gate_codes_2_are_ill_formed :
    inRange (.gate 2 0 .low ·) = false ∧ inRange (.gate 0 2 .low ·) = false := by decide
theorem test_schedule_ill_formed_fields :
    (inRange (scheduleOf 6 0 1 0 0 0) || inRange (scheduleOf 3 8 1 0 0 0)
      || inRange (scheduleOf 4 4 0 0 0 0) || inRange (scheduleOf 3 0 0 0 0 0)
      || inRange (scheduleOf 5 0 0 2 0 0) || inRange (scheduleOf 5 0 0 0 0 4)) = false := by
  decide
theorem test_report_every_n_runs_2_to_16 :
    reportOk 3 1 = false ∧ reportOk 3 2 = true ∧ reportOk 3 16 = true ∧ reportOk 3 17 = false := by
  decide
theorem test_late_policy_2_is_ill_formed :
    actionOk ⟨5, 0, 0, 0, 0, 0, 0, 2, 0⟩ = false := by decide
theorem test_handles_ill_formed :
    inRange (.cancel 0 0 ·) = false ∧ inRange (.cancel 1 64 ·) = false
      ∧ inRange (.await 0 0 0 ·) = false ∧ inRange (.await 1 64 0 ·) = false := by decide
theorem test_line_commands_ill_formed :
    inRange (.cancelLine 8 0 ·) = false ∧ inRange (.cancelLine 0 2 ·) = false
      ∧ inRange (.line 8 0 0 ·) = false ∧ inRange (.line 0 2 0 ·) = false
      ∧ inRange (.line 0 0 2 ·) = false ∧ inRange (.drive 8 0 ·) = false
      ∧ inRange (.drive 0 2 ·) = false := by decide
theorem test_channel_ill_formed_fields :
    [⟨8, 1, 0, 1, 0, 1⟩, ⟨0, 4, 0, 1, 0, 1⟩, ⟨0, 1, 3, 1, 0, 1⟩, ⟨0, 2, 2, 1, 0, 1⟩,
      ⟨0, 1, 0, 0, 0, 1⟩, ⟨0, 2, 3, 2, 0, 1⟩, ⟨0, 1, 0, 1, 16, 1⟩, ⟨0, 1, 0, 1, 0, 2⟩].all
      (fun f => !inRange (.channel f .low ·)) = true := by decide
theorem test_channel_number_8_is_ill_formed :
    inRange (.channelOff 8 ·) = false ∧ inRange (.channelStatus 8 ·) = false := by decide
theorem test_sampler_ill_formed_fields :
    inRange (.sampler 2 10 ·) = false ∧ inRange (.sampler 1 1 ·) = false := by decide
theorem test_window_ill_formed_fields :
    inRange (.window 4 0 0 0 ·) = false ∧ inRange (.window 0 4096 4096 0 ·) = false
      ∧ inRange (.window 0 0 4096 0 ·) = false ∧ inRange (.window 0 2 1 0 ·) = false
      ∧ inRange (.window 0 0 0 2 ·) = false := by decide
theorem test_trigger_ill_formed_fields :
    let mark : TemplateFields := ⟨5, 0, 0, 0, 0, 0, 0, 0, 0⟩
    ([⟨16, 0, 0, 0, 0, 0, 1, 1, 0, mark⟩, ⟨0, 3, 0, 0, 0, 0, 1, 1, 0, mark⟩,
      ⟨0, 0, 8, 0, 0, 0, 1, 1, 0, mark⟩, ⟨0, 1, 4, 1, 0, 0, 1, 1, 0, mark⟩,
      ⟨0, 1, 0, 0, 0, 0, 1, 1, 0, mark⟩, ⟨0, 1, 0, 4, 0, 0, 1, 1, 0, mark⟩,
      ⟨0, 2, 0, 0, 0, 0, 1, 1, 0, mark⟩, ⟨0, 0, 0, 0, 0, 0, 0, 1, 0, mark⟩,
      ⟨0, 0, 0, 0, 0, 0, 1, 0, 0, mark⟩, ⟨0, 0, 0, 0, 0, 0, 1, 9, 0, mark⟩,
      ⟨0, 0, 0, 0, 0, 0, 1, 1, 2, mark⟩,
      ⟨0, 0, 0, 0, 0, 0, 1, 1, 0, { mark with kind := 6 }⟩] : List TriggerFields).all
      (fun f => !inRange (.trigger f ·)) = true := by decide
theorem test_trigger_commands_ill_formed :
    inRange (.triggerArm 16 1 ·) = false ∧ inRange (.triggerArm 0 0 ·) = false
      ∧ inRange (.triggerArm 0 3 ·) = false ∧ inRange (.triggerClear 16 0 ·) = false
      ∧ inRange (.triggerClear 0 2 ·) = false ∧ inRange (.triggerStatus 16 ·) = false := by decide
theorem test_stream_ill_formed_fields :
    [⟨2, 1, 0, 10, 1⟩, ⟨0, 0, 0, 10, 1⟩, ⟨0, 9, 0, 10, 1⟩, ⟨0, 1, 251, 10, 1⟩, ⟨0, 1, 0, 9, 1⟩,
      ⟨0, 1, 0, 1001, 1⟩, ⟨0, 1, 0, 10, 0⟩, ⟨0, 1, 0, 10, 16⟩].all
      (fun f => !inRange (.stream f ·)) = true := by decide
theorem test_read_0_and_9_are_ill_formed :
    inRange (.read 0 ·) = false ∧ inRange (.read 9 ·) = false := by decide
theorem test_events_ill_formed :
    wellFormed (.lengthError ⟨false, .low, 120, .high⟩) = false
      ∧ wellFormed (.lengthError ⟨false, .high, 121, .high⟩) = false
      ∧ wellFormed (.frameReceived ⟨false, .high, 0, .high⟩) = false
      ∧ wellFormed (.awaitTimeout 0) = false := by decide

/-! ## Frames and records, byte by byte (sections 10.2, 11.4, 11.5, 11.6) -/

/-- R185: "the nine bytes 0x31 to 0x39 give 0x29B1". -/
theorem test_check_of_the_nine_digits :
    crcOf [0x31, 0x32, 0x33, 0x34, 0x35, 0x36, 0x37, 0x38, 0x39] = 0x29B1 := by decide +kernel

/-- Section 10.2: the HELLO frame with tag 1. -/
theorem test_hello_frame : frameBytes ⟨0x01, kindHello, []⟩
    = [0xC3, 0x00, 0x01, 0x01, 0xEF, 0x8C] := by decide +kernel

/-- Section 11.6: PULSE OUT2, width 40, RELATIVE 1,250, EACH, FIRE, label 7. -/
theorem test_schedule_is_written_as_section_11_6_gives_it :
    frameOf (.schedule ⟨⟨3, 2, 40, 0, 0, 1, 0, 0, 7⟩, 1, 1250⟩ .toReply)
      = some (0x10, [0x03, 0x02, 0x00, 0x28, 0x01, 0x00, 0x00, 0x00, 0x00, 0x04, 0xE2,
          0x00, 0x00, 0x00, 0x00, 0x00, 0x00, 0x01, 0x00, 0x00, 0x00, 0x07]) := by decide +kernel

/-- Section 11.4: one payload of each family, written out from the layout table. -/
theorem test_payloads_are_read_as_section_11_4_lays_them_out :
    commandOf .low .low .toReply 0x09 [0, 0, 0, 0, 0x14, 0xB4] = some (.setTime 5300 .toReply)
    ∧ commandOf .high .low .toReply 0x0C [1, 0] = some (.gate 1 0 .high .toReply)
    ∧ commandOf .low .low .toReply 0x14 [2, 5, 0x01, 0xF4] = some (.await 2 5 500 .toReply)
    ∧ commandOf .low .low .toReply 0x18 [3, 0, 1] = some (.line 3 0 1 .toReply)
    ∧ commandOf .low .high .toReply 0x20 [3, 3, 0, 2, 2, 1]
        = some (.channel ⟨3, 3, 0, 2, 2, 1⟩ .high .toReply)
    ∧ commandOf .low .low .toReply 0x29 [1, 0x03, 0xE8, 0x0B, 0xB8, 1]
        = some (.window 1 1000 3000 1 .toReply)
    ∧ commandOf .low .low .toReply 0x38 [1, 3, 10, 0, 100, 5]
        = some (.stream ⟨1, 3, 10, 100, 5⟩ .toReply)
    ∧ commandOf .low .low .toReply 0x3F [9] = some (.ack 9)
    ∧ commandOf .low .low .toReply 0x09 [0, 0, 0, 0, 0] = none
    ∧ commandOf .low .low .toReply 0x7F [] = none := by
  decide +kernel

/-- Section 11.4: the 28 bytes of a TRIGGER. -/
theorem test_trigger_payload_is_read :
    commandOf .low .low .toReply 0x30 [2, 0, 3, 0, 0, 0, 3, 0, 0, 0x04, 0xE2, 1, 0,
        3, 2, 0, 40, 0, 0, 0, 0, 0, 0, 2, 0, 0, 0, 0]
      = some (.trigger ⟨2, 0, 3, 0, 0, 3, 1250, 1, 0, ⟨3, 2, 40, 0, 0, 2, 0, 0, 0⟩⟩ .toReply) := by
  decide +kernel

/-- Section 11.6: the PERIOD entry. -/
theorem test_period_entry_is_written_as_section_11_6_gives_it :
    stampBytes ⟨.period 3 200 false, 10350, none⟩
      = [0x23, 0x00, 0x00, 0x00, 0x00, 0x00, 0x28, 0x6E, 0x00, 0x00, 0x00, 0xC8, 0x00, 0x00] := by
  decide +kernel

/-- R199 and section 11.5: READY after power-on. -/
theorem test_ready_notice_is_18_bytes : (noticeBytes (Notice.readyFor .power)).length = 18 := by
  decide +kernel

/-- No row of the table has bits: a word spells no command, and none comes to the queue. -/
theorem test_no_word_spells_a_command :
    decodeTableWord 8 0 = none ∧ (up.withFetchWord 8 0).pending = [] := by decide

/-! ## System commands (R170 to R173, section 12.5) -/

/-- R170, with the principal figures of 00_scope. -/
theorem test_hello_lists_the_principal_figures : reply (.hello ·) up
    = [0, 0x12, 0xC8, 1, 64, 8, 8, 4, 16, 128, 32, 4, 8, 16, 120, 0] := by decide +kernel

/-- R171: run state, value and table count come first. -/
theorem test_status_begins_with_the_timebase : (reply (.status ·) (runAt 5300 up)).take 9
    = [0, 1, 0, 0, 0, 0, 0x14, 0xB4, 0] := by decide +kernel

/-- R171: the blocks are not read at one instant: a tick falls between the Timebase's reading and the
Action Table's. -/
theorem test_status_reads_each_block_as_it_stands :
    let s := after (.status .oneClaim) (asked (.status ·) (runAt 5 up))
    (after (.status .oneClaim) (after (.tickClockPeriod .high) s)).cmd.progress
      = .reading [[1, 0, 0, 0, 0, 0, 5], [0]] := by decide +kernel

/-- 12.5 step 1: what waits is answered ABORTED and reset pending is set. -/
theorem test_reset_aborts_an_await :
    let s := { asked (.reset 1 ·) up with
      cmd := { (asked (.reset 1 ·) up).cmd with awaits := [⟨31, ⟨2, 5⟩, none, 3⟩] } }
    (after (.reset 1 .toReply) s).cmd.resetPending = some .holdLines
      ∧ (after (.reset 1 .toReply) s).cmd.slots[3] = .filled ⟨0x94, 31, [0x0D]⟩
      ∧ (after (.reset 1 .toReply) s).cmd.replyQueue = [3, 0] := by decide +kernel

theorem test_reset_option_2_is_refused : reply (.reset 2 ·) up = [5] := by decide +kernel

/-! ## The timebase (sections 1.9, 2.13) -/

theorem test_clock_is_refused_in_a_run : reply (.clock 1 4 ·) (runAt 7 up) = [6] := by decide +kernel
theorem test_clock_sets_source_and_prescaler :
    (did (.clock 1 4 ·) up).time = ⟨0, .stopped, .refin, 4, 0, false, .high, false⟩ := by decide +kernel

/-- R7: the count and the period of the old clock are over: the new clock's first period has a sample of
its own. -/
theorem test_clock_begins_a_period_of_its_own :
    let s := did (.clock 0 1 ·) (channelAs 3 ⟨Channel.reset.config, .priming 0, 0, 0, .ahead⟩ up)
    (after (.tickClockPeriod .low) s).channels[3].sampling = .due := by decide +kernel

/-- 2.13 step 6: SET_TIME 5,300 while stopped. -/
theorem test_set_time_5300 : (did (.setTime 5300 ·) (stopAt 5100 up)).time.value = 5300 := by
  decide +kernel
/-- R68: with the tick to 101 taken, STOP comes before the channel's sample and SET_TIME only after it; the
sample's stamp is 101. -/
theorem test_set_time_waits_for_the_sample_of_a_tick :
    let s := channelAs 3 ⟨Channel.reset.config, .armed .low none, 0, 0, .inStep⟩ (runAt 100 up)
    let t := did (.stop ·) (after (.tickClockPeriod .high) s)
    (did (.setTime 0 ·) t).time.value = 101
      ∧ (after (.channelSample 3 .high) t).handed.events = [⟨.channel 3, 101⟩]
      ∧ (did (.setTime 0 ·) (after (.channelSample 3 .high) t)).time.value = 0 := by decide +kernel

/-- 12.1: a pulse ending at 41,350 ends at once at SET_TIME 41,600. -/
theorem test_set_time_ends_a_passed_pulse :
    (did (.setTime 41600 ·) (stopAt 41300
      (lineAs 5 ⟨.scheduled, .low, .high, some ⟨41350, none, true⟩⟩ up))).lines[5]
      = ⟨.scheduled, .low, .low, none⟩ := by decide +kernel

theorem test_start_with_the_gate_open_runs : reply (.start .high ·) up = [0, 1] := by decide +kernel
/-- 12.1: the walk at 41,600 re-times a record due 41,500 to 41,601 with its late flag. -/
theorem test_start_walks_a_late_record :
    ((did (.start .low ·) (stopAt 41600 (holding [recordOf 0 .mark 41500 .none none 0] up))
      ).table.records.map (fun r => (r.due, r.lateFlag))) = [(41601, true)] := by decide +kernel

theorem test_stop_keeps_the_value :
    (did (.stop ·) (runAt 1004 up)).time.run = .stopped
      ∧ (did (.stop ·) (runAt 1004 up)).time.value = 1004 := by decide +kernel

/-- R6: a closed gate holds a run. -/
theorem test_gate_holds_a_run : reply (.gate 1 1 .low ·) (runAt 5 up) = [0, 2] := by decide +kernel

/-- 1.9: GET_TIME of a stopped timebase at 1,004, prescaler 4, gated HIGH. -/
theorem test_get_time : reply (.getTime ·)
      { up with time := ⟨1004, .stopped, .internal, 4, 0, true, .high, false⟩ }
    = [0, 0, 0, 0, 0, 0x03, 0xEC, 0, 0, 4, 1, 1] := by decide +kernel

/-! ## The Action Table's commands (section 2.13) -/

/-- 2.13 step 4: due 4,990 at value 5,010 is late: 5,011 with the late flag. -/
theorem test_schedule_late_fires_next :
    reply (scheduleOf 1 1 0 0 4990 0) (runAt 5010 up) = [0, 1, 0]
      ∧ ((did (scheduleOf 1 1 0 0 4990 0) (runAt 5010 up)).table.records.map
          (fun r => (r.due, r.lateFlag))) = [(5011, true)] := by decide +kernel
/-- 2.13 step 3: the same with SKIP is PAST. -/
theorem test_schedule_late_skip_is_past :
    reply (.schedule ⟨⟨5, 0, 0, 0, 0, 0, 0, 1, 0⟩, 0, 4990⟩ ·) (runAt 5010 up) = [0x0A] := by
  decide +kernel

/-- 2.13 step 10: a handle no longer live. -/
theorem test_cancel_of_a_dead_handle_is_no_such : reply (.cancel 1 1 ·) up = [7] := by decide +kernel
theorem test_cancel_frees_and_advances_the_slot :
    let t := did (.cancel 1 9 ·) (runAt 5 (holding [recordOf 9 .mark 50 .each (some 3) 0] up))
    t.table.records = [] ∧ t.table.gens[9] = 2
      ∧ t.notices.queue.map (fun n => (n.body, n.time, n.label))
          = [(.ended ⟨1, 9⟩ .cancelled, 5, some 3)] := by decide +kernel

theorem test_cancel_line_takes_its_line_alone :
    reply (.cancelLine 3 0 ·) (holding [recordOf 1 (.set 3) 9 .none none 0,
      recordOf 2 (.set 4) 9 .none none 1, recordOf 3 (.pulse 3 5) 9 .none none 2] up)
      = [0, 2] := by decide +kernel

theorem test_list_actions_counts_from_its_position :
    (reply (.listActions 1 ·) (holding [recordOf 1 (.set 3) 9 .none none 0,
      recordOf 2 (.set 4) 9 .none none 1] up)).take 3 = [0, 2, 1] := by decide +kernel

theorem test_await_of_a_dead_handle_is_no_such : reply (.await 1 1 0 ·) up = [7] := by decide +kernel
theorem test_await_waits_on_a_live_handle :
    (did (.await 1 9 500 ·) (holding [recordOf 9 .mark 50 .each none 0] up)).cmd.awaits
      = [⟨1, ⟨1, 9⟩, some 500000, 0⟩] := by decide +kernel

/-! ## Lines (sections 3.9, 12.5) -/

/-- 3.9: LINE OUT3 DIRECT abandons the running pulse and keeps HIGH. -/
theorem test_line_to_direct_keeps_the_level :
    let s := lineAs 3 ⟨.scheduled, .low, .high, some ⟨1012, none, false⟩⟩ up
    reply (.line 3 0 0 ·) s = [0, 0, 0, 1]
      ∧ (did (.line 3 0 0 ·) s).lines[3] = ⟨.direct, .low, .high, none⟩ := by decide +kernel
theorem test_line_idle_change_is_refused_in_a_pulse :
    reply (.line 3 1 1 ·) (lineAs 3 ⟨.scheduled, .low, .high, some ⟨9, none, false⟩⟩ up) = [6] := by
  decide +kernel

theorem test_drive_sets_a_direct_line : (did (.drive 1 1 ·) up).lines[1].level = .high := by
  decide +kernel
theorem test_drive_of_a_scheduled_line_is_refused :
    reply (.drive 1 1 ·) (lineAs 1 ⟨.scheduled, .low, .low, none⟩ up) = [6] := by decide +kernel

/-- R60: time and eight line states of section 11.4. -/
theorem test_line_status_carries_the_value :
    (reply (.lineStatus ·) (runAt 1004 up)).take 7 = [0, 0, 0, 0, 0, 0x03, 0xEC] := by decide +kernel

/-! ## Channels (section 4.10) -/

/-- 4.10: a PERIOD channel on RISING enters PRIMING. -/
theorem test_channel_enters_priming : reply (.channel ⟨3, 3, 0, 2, 2, 1⟩ .low ·) up = [0, 1] := by
  decide +kernel
/-- R72: BOTH enters ARMED at the pin's level. -/
theorem test_channel_of_both_is_armed_at_the_pin :
    (did (.channel ⟨3, 1, 2, 1, 0, 1⟩ .high ·) up).channels[3].run = .armed .high none := by
  decide +kernel

/-- 4.10 step 9: CHANNEL_OFF answers the event counter and keeps the configuration. -/
theorem test_channel_off_answers_the_event_counter :
    let s := channelAs 3 ⟨⟨.period, .rising, 2, 2, true⟩, .measuring .high none 10350, 1, 1, .due⟩ up
    reply (.channelOff 3 ·) s = [0, 0, 0, 0, 1]
      ∧ (did (.channelOff 3 ·) s).channels[3]
          = ⟨⟨.period, .rising, 2, 2, true⟩, .off, 0, 1, .inStep⟩ := by
  decide +kernel

/-- 4.10: the status after step 9. -/
theorem test_channel_status :
    reply (.channelStatus 3 ·) (channelAs 3 ⟨⟨.period, .rising, 2, 2, true⟩, .off, 0, 1, .inStep⟩ up)
      = [0, 3, 0, 2, 2, 1, 0, 0, 0, 0, 0, 1, 0, 0] := by decide +kernel

/-- 4.10 step 3: the third HIGH sample makes the transition of stamp 10,050 count. -/
theorem test_filter_counts_the_third_sample :
    (after (.channelSample 3 .high) (runAt 10052 (channelAs 3 ⟨⟨.period, .rising, 2, 2, true⟩,
      .armed .low (some ⟨.high, 10050, 1⟩), 0, 0, .due⟩ up))).channels[3]
      = ⟨⟨.period, .rising, 2, 2, true⟩, .armed .high none, 1, 0, .inStep⟩ := by decide +kernel
/-- 4.10 step 8: the second divided edge, 200 ticks after the reference 10,150. -/
theorem test_second_divided_edge_is_a_period_event :
    (after (.channelSample 3 .high) (runAt 10352 (channelAs 3 ⟨⟨.period, .rising, 2, 2, true⟩,
      .measuring .low (some ⟨.high, 10350, 1⟩) 10150, 1, 0, .due⟩ up))).handed.offers
      = [⟨.period 3 200 false, 10350⟩] := by decide +kernel

/-! ## The sampler (sections 5.8, 12.3) -/

/-- 5.8 step 5: SAMPLER OFF in a conversion aborts it and sets the recovery end 3 µs on. -/
theorem test_sampler_off_aborts_a_conversion :
    let conv : Converter := .converting ⟨1, 20600, some 9, false⟩ 77 9
    let s := { up with sampler := { up.sampler with conv := conv } }
    (did (.sampler 0 10 ·) s).sampler.conv = .off
      ∧ (did (.sampler 0 10 ·) s).sampler.recoveryEnd = some 3 := by decide +kernel
/-- 5.8 step 6: ON before the recovery end enters RECOVERING. -/
theorem test_sampler_on_before_the_recovery_end :
    (reply (.sampler 1 10 ·) { up with sampler := { up.sampler with recoveryEnd := some 3 } }).take 3
      = [0, 4, 10] := by decide +kernel

/-- 5.8: WINDOW AIN1 1,000..3,000. -/
theorem test_window_forgets_the_zone : reply (.window 1 1000 3000 1 ·) up
    = [0, 0x03, 0xE8, 0x0B, 0xB8, 1, 0, 0, 0] := by decide +kernel

/-- R92: the level held at the end of acquisition, and 10 µs of conversion. -/
theorem test_end_of_acquisition_converts :
    (after (.endOfAcquisition 2731) { up with sampler := { up.sampler with
      conv := .acquiring ⟨0, 70000, some 4, false⟩ 10 } }).sampler.conv
      = .converting ⟨0, 70000, some 4, false⟩ 2731 20 := by decide +kernel

/-- 12.3: 2,731 against 2,000..2,500 is ABOVE; the zone was INSIDE, so there is a zone entry. -/
theorem test_end_of_conversion_classes_and_enters_a_zone :
    let t := after .endOfConversion { up with sampler := { up.sampler with
      conv := .converting ⟨0, 70000, some 4, false⟩ 2731 20
      inputs := up.sampler.inputs.set 0 ⟨2000, 2500, true, some .inside, 1⟩ } }
    t.handed = ⟨[⟨.sample 0 2731 .above false (some 4), 70000⟩], [⟨.zone 0 .above, 70000⟩], []⟩
      ∧ t.sampler.inputs[0] = ⟨2000, 2500, true, some .above, 1⟩ ∧ t.now = 20 := by decide +kernel

theorem test_recovery_ends_in_idle :
    (after .recoveryEnd { up with
      sampler := { up.sampler with conv := .recovering, recoveryEnd := some 3 } }).sampler.conv
      = .idle := by decide +kernel

/-! ## Triggers (sections 6.10, 12.2, 12.3) -/

/-- 6.10's definition: IN3, three shots, delay 1,250, limit 1, PULSE OUT2 width 40, LAST. -/
def pulseTrigger : TriggerDef :=
  ⟨.channel 3, 3, 1250, 1, .ignore, ⟨.pulse 2 40, none, .last, .fire, none⟩⟩

theorem test_trigger_arms_its_slot :
    let i := (Instr.trigger ⟨2, 0, 3, 0, 0, 3, 1250, 1, 0, ⟨3, 2, 40, 0, 0, 2, 0, 0, 0⟩⟩ ·)
    reply i up = [0, 1, 3]
      ∧ (did i up).triggers.slots[2].use = .defined pulseTrigger .armed 3 [] := by decide +kernel

/-- R164 step 1: the length is checked with the Trigger Table's claim still open. -/
theorem test_wrong_length_does_not_wait_for_the_claim :
    let claim := some (TriggerClaim.event ⟨.channel 3, 8000⟩ ⟨2, pulseTrigger.template, 9250, none⟩)
    let s := { up with triggers := { up.triggers with claim := claim }
                       cmd := { up.cmd with queue := [⟨7, kindTriggerStatus, [], 0⟩] } }
    (after (.triggerStatus 2 .toReply) s).cmd.slots[0] = .filled ⟨0xB3, 7, [4]⟩ := by decide +kernel

/-- 6.10 step 9: re-arming a SPENT slot reloads its shots. -/
theorem test_trigger_arm_reloads_a_spent_slot :
    reply (.triggerArm 2 1 ·) (slotAs 2 ⟨.defined pulseTrigger .spent 0 [], 1⟩ up) = [0, 1, 3] := by
  decide +kernel

theorem test_trigger_clear_with_cancel_waits_for_the_table :
    (did (.triggerClear 2 1 ·) (slotAs 2 ⟨.defined pulseTrigger .armed 2 [⟨1, 0⟩], 1⟩ up)).triggers.claim
      = some (.clearing [⟨1, 0⟩] 1) := by decide +kernel

/-- 6.10 step 9: SPENT, no shots, no instance, one miss. -/
theorem test_trigger_status :
    reply (.triggerStatus 2 ·) (slotAs 2 ⟨.defined pulseTrigger .spent 0 [], 1⟩ up)
      = [0, 3, 0, 0, 0, 1] := by decide +kernel

/-- 6.10 step 1: the event of stamp 8,000 asks for a record due 9,250. -/
theorem test_source_event_makes_a_request :
    (after (.triggerSourceEvent (.channel 3)) (handing ⟨[], [⟨.channel 3, 8000⟩], []⟩
      (slotAs 2 ⟨.defined pulseTrigger .armed 3 [], 0⟩ up))).triggers.claim
      = some (.event ⟨.channel 3, 8000⟩ ⟨2, pulseTrigger.template, 9250, none⟩) := by decide +kernel
/-- 6.10 step 2: at its limit under IGNORE the slot counts a miss. -/
theorem test_source_event_at_the_limit_is_a_miss :
    (after (.triggerSourceEvent (.channel 3)) (handing ⟨[], [⟨.channel 3, 8900⟩], []⟩
      (slotAs 2 ⟨.defined pulseTrigger .armed 2 [⟨1, 0⟩], 0⟩ up))).triggers.slots[2]
      = ⟨.defined pulseTrigger .armed 2 [⟨1, 0⟩], 1⟩ := by decide +kernel

/-- The request of 6.10 step 1, handed to the Action Table. -/
def requested : State :=
  { slotAs 2 ⟨.defined pulseTrigger .armed 3 [], 0⟩ (runAt 8000 up) with
    triggers := { (slotAs 2 ⟨.defined pulseTrigger .armed 3 [], 0⟩ up).triggers with
      claim := some (.event ⟨.channel 3, 8000⟩ ⟨2, pulseTrigger.template, 9250, none⟩) } }

/-- 6.10 step 1: the record is 1/0 and one shot is used. -/
theorem test_admission_request_lists_the_handle :
    let t := after .triggerAdmissionRequest requested
    t.triggers = { requested.triggers with
        slots := requested.triggers.slots.set 2 ⟨.defined pulseTrigger .armed 2 [⟨1, 0⟩], 0⟩
        claim := none }
      ∧ t.table.records.map (fun r => (r.handle, r.due, r.origin))
          = [(⟨1, 0⟩, 9250, .trigger 2)] := by decide +kernel
/-- 12.3: a late SKIP request is PAST, a miss with a notice, and uses no shot. -/
theorem test_late_skip_request_is_a_past_miss :
    let d : TriggerDef := ⟨.zone 0 .above, 3, 100, 1, .ignore, ⟨.clear 1, none, .none, .skip, none⟩⟩
    let s := slotAs 1 ⟨.defined d .armed 3 [], 0⟩ (runAt 70400 up)
    let t := after .triggerAdmissionRequest { s with triggers := { s.triggers with
      claim := some (.event ⟨.zone 0 .above, 70000⟩ ⟨1, d.template, 70100, none⟩) } }
    t.triggers.slots[1] = ⟨.defined d .armed 3 [], 1⟩
      ∧ t.notices.queue = [⟨.triggerMiss 1 .past, 70400, none, none⟩] := by decide +kernel

/-- 12.2 step 4: 1/62 leaves CANCELLED, and 2/62 takes its slot and its place behind 1/63. -/
theorem test_replacement_takes_the_oldest_instances_slot :
    let b : Template := ⟨.pulse 6 300, none, .last, .skip, some 30⟩
    let d : TriggerDef := ⟨.channel 4, 0, 2000, 2, .replaceOldest, b⟩
    let r := fun (slot : Fin 64) (due : Time) (n : Nat) =>
      ({ handle := ⟨1, slot⟩, body := b, due := due, remaining := 1, origin := .trigger 5
         ordinal := 0, lateFlag := false, standing := n } : Record)
    let s := holding [r 62 52000 0, r 63 52800 1]
      (slotAs 5 ⟨.defined d .armed 0 [⟨1, 62⟩, ⟨1, 63⟩], 0⟩ (runAt 51101 up))
    let t := after .replacementAdmission { s with triggers := { s.triggers with
      claim := some (.event ⟨.channel 4, 51100⟩ ⟨5, b, 53100, some ⟨1, 62⟩⟩) } }
    t.triggers.slots[5].use = .defined d .armed 0 [⟨1, 63⟩, ⟨2, 62⟩]
      ∧ t.notices.queue.map (fun n => (n.body, n.time, n.label))
          = [(.ended ⟨1, 62⟩ .cancelled, 51101, some 30)] := by decide +kernel

/-- R116: the last cancel of a TRIGGER_CLEAR replies with the number of handles. -/
theorem test_last_cancel_request_replies :
    let s := asked (.triggerClear 2 1 ·) (holding [recordOf 0 .mark 50 .none none 0] up)
    let t := after (.triggerCancelRequest .toReply) { s with triggers := { s.triggers with
      claim := some (.clearing [⟨1, 0⟩] 1) } }
    t.table.records = [] ∧ t.cmd.slots[0] = .filled ⟨0xB2, 1, [0, 1]⟩ ∧ t.triggers.claim = none := by
  decide +kernel

/-! ## Stamps and the stream (sections 7.11, 12.4) -/

theorem test_stream_on_replies_its_configuration :
    reply (.stream ⟨1, 3, 10, 100, 5⟩ ·) up = [0, 1, 3, 10, 0, 100, 5, 0] := by decide +kernel

theorem test_read_gives_count_and_entries :
    (reply (.read 8 ·) (stamped [entryOf .waiting 5] up)).take 3 = [0, 1, 1] := by decide +kernel
theorem test_read_is_refused_while_on :
    reply (.read 8 ·) (streamAs (streamOn [] none 0 1) up) = [6] := by decide +kernel

theorem test_release_takes_the_oldest :
    (did (.release 1 ·) (stamped [entryOf .waiting 5, entryOf .waiting 6] up)).stamps.entries
      = [entryOf .waiting 6] := by decide +kernel

/-- 12.4 at 8.0 ms: ACK 9 is good; its entries leave and the timer is restarted. -/
theorem test_good_ack_restarts_the_timer :
    let s := handing ⟨[], [], [[9]]⟩ (stamped [entryOf (.inFlight 9) 1, entryOf (.inFlight 10) 2]
      (streamAs (streamOn [⟨9, [(entryOf .waiting 1).content], false⟩,
        ⟨10, [(entryOf .waiting 2).content], false⟩] (some 105600) 0 11) { up with now := 8000 }))
    (after (.ack 9) s).stream.timer = some 108000
      ∧ (after (.ack 9) s).stamps.entries = [entryOf (.inFlight 10) 2] := by decide +kernel
/-- 12.5 step 4: with the stream OFF an ACK is stale. -/
theorem test_ack_while_off_is_stale :
    (after (.ack 3) (handing ⟨[], [], [[3]]⟩ up)).stream.stale = 1 := by decide +kernel

/-- R141: a stale ACK changes the counter alone, though a report's hold has passed unnoticed. -/
theorem test_stale_ack_forms_no_report :
    let s := handing ⟨[], [], [[3]]⟩ (stamped [entryOf .waiting 1]
      (streamAs (streamOn [] none 0 1) { quiet with now := 10000 }))
    eligible s = true ∧ (after (.ack 3) s).stream.stale = 1
      ∧ (after (.ack 3) s).tx = quiet.tx := by decide +kernel

/-- R124, R125: an offer is admitted with its source's pending losses. -/
theorem test_offer_carries_the_lost_before_count :
    (after (.stampOffer (.channel 2)) (handing ⟨[⟨.edge 2 .rising, 1002⟩], [], []⟩ { up with
      stamps := { up.stamps with channelLoss := up.stamps.channelLoss.set 2 7 } })).stamps.entries
      = [⟨.waiting, ⟨.edge 2 .rising, 1002, some 7⟩, 0⟩] := by decide +kernel

/-- 7.11 step 3: at 12 ms, 10 ms after the oldest admission, report 1 is formed and begun. -/
theorem test_hold_time_forms_a_report :
    let e : StampEntry := ⟨.waiting, ⟨.edge 0 .rising, 1, none⟩, 2000⟩
    let t := after .holdTimeReached (stamped [e] (streamAs (streamOn [] none 0 1)
      { quiet with now := 5000 }))
    t.now = 12000 ∧ t.stream.window = [⟨1, [e.content], false⟩] ∧ t.stream.nextSequence = 2 := by
  decide +kernel

/-- 12.4 at 108.0 ms: below the limit, both reports are marked and the oldest is resent at once. -/
theorem test_expiry_marks_and_resends :
    let t := after .retransmitExpiry (streamAs (streamOn [⟨10, [], false⟩, ⟨11, [], false⟩]
      (some 108000) 0 12) quiet)
    t.stream.window = [⟨10, [], false⟩, ⟨11, [], true⟩] ∧ t.stream.retryCount = 1
      ∧ t.stream.timer = none ∧ t.now = 108000 := by decide +kernel
/-- 12.4 at 519.3 ms: at the limit the stream stalls and says so. -/
theorem test_expiry_at_the_limit_stalls :
    let t := after .retransmitExpiry (stamped [entryOf (.inFlight 12) 1]
      (streamAs (streamOn [⟨12, [(entryOf .waiting 1).content], false⟩] (some 519300) 2 13) up))
    t.stream.state = .stalled ∧ t.stream.window = [] ∧ t.stamps.entries = [entryOf .waiting 1]
      ∧ t.notices.queue.map Notice.body = [.streamStalled] := by decide +kernel

/-! ## Ticks (sections 1.9, 2.13, 3.9, 12.3) -/

/-- 1.9: with prescaler 4, a source period below the fourth advances the count alone. -/
theorem test_source_period_counts :
    (after .sourcePeriod { up with time := { up.time with prescaler := 4 } }).time.count = 1 := by
  decide +kernel

/-- 1.9: GATE LOW at a tick-clock period makes a gated run HELD at its value. -/
theorem test_closed_gate_is_no_tick :
    (after (.tickClockPeriod .low) (runAt 1002 { up with time := { up.time with gating := true } })
      ).time = ⟨1002, .held, .internal, 1, 0, true, .high, false⟩ := by decide +kernel
/-- 3.9 at tick 1,002: CLEAR truncates the running pulse, and PULSE starts another. -/
theorem test_two_firings_of_one_tick_on_one_line :
    let t := after (.tickClockPeriod .high) (runAt 1001 (holding
      [recordOf 7 (.clear 3) 1002 .each none 0, recordOf 8 (.pulse 3 10) 1002 .none none 1]
      (lineAs 3 ⟨.scheduled, .low, .high, some ⟨1005, none, true⟩⟩ up)))
    t.lines[3] = ⟨.scheduled, .low, .high, some ⟨1012, none, false⟩⟩
      ∧ t.notices.queue.map Notice.body
          = [.truncated 3, .fired ⟨1, 7⟩ .normal 1, .ended ⟨1, 7⟩ .done] := by decide +kernel

/-- R113: slot 2 is fired by its own instance's label. Taken within the tick, before the record leaves,
the event finds the list at its limit and is a miss; taken after it, the slot asks for a record. -/
theorem test_a_label_event_can_be_taken_within_its_tick :
    let d : TriggerDef := ⟨.label 7, 0, 10, 1, .ignore, ⟨.mark, none, .none, .fire, some 7⟩⟩
    let r : Record := { recordOf 0 .mark 1002 .none (some 7) 0 with origin := .trigger 2 }
    let s := runAt 1001 (holding [r] (slotAs 2 ⟨.defined d .armed 0 [⟨1, 0⟩], 0⟩ up))
    (after (.tickClockPeriod .high [⟨[.actionTable], []⟩]) s).triggers.slots[2]
        = ⟨.defined d .armed 0 [], 1⟩
      ∧ (after (.tickClockPeriod .high [⟨[], [.actionTable]⟩]) s).triggers.claim
        = some (.event ⟨.label 7, 1002⟩ ⟨2, d.template, 1012, none⟩) := by decide +kernel

/-! ## The link (sections 9.11, 10.1 to 10.5) -/

/-- R182 to R184: SYNC begins a frame with the gap 5 ms on. -/
theorem test_sync_begins_a_frame :
    (after (.byteTaken ⟨false, .low, 0xC3, .high⟩ ) up).rx.state = .len
      ∧ (after (.byteTaken ⟨false, .low, 0xC3, .high⟩) up).rx.gapExpiry = some 5000
      ∧ (after (.byteTaken ⟨false, .high, 0xC3, .high⟩) up).rx.state = .hunt := by decide +kernel

/-- R180: after a stop bit sampled LOW no character begins until RXD has stood HIGH again. -/
theorem test_no_byte_begins_until_rxd_has_risen :
    let s := after (.byteTaken ⟨false, .low, 0, .low⟩) up
    (after (.byteTaken ⟨false, .low, 0xC3, .high⟩) s).rx.state = .hunt
      ∧ (after (.byteTaken ⟨true, .low, 0xC3, .high⟩) s).rx.state = .len := by decide +kernel

/-- R193: after a device reset the first character comes from the first fall of RXD: one that the line,
LOW since the reset, would show without having stood HIGH gives no byte. -/
theorem test_no_byte_after_a_reset_until_rxd_falls :
    let s := after (.resetPinRelease .low .low) (after .resetPin up)
    (after (.byteTaken ⟨false, .low, 0xC3, .high⟩) s).rx = Receiver.reset
      ∧ (after (.byteTaken ⟨true, .low, 0xC3, .high⟩) s).rx.state = .len := by decide +kernel

/-- The HELLO frame of section 10.2 but for its CRC_LO byte. -/
def helloAlmostTaken : State :=
  { up with rx := ⟨.crcLo, 0, 1, 1, [], 0xEF8C, 0xEF, some 5000, 0, 0, 0, false⟩ }

theorem test_good_frame_joins_the_command_queue :
    (after (.frameReceived ⟨false, .low, 0x8C, .high⟩) helloAlmostTaken).cmd.queue = [⟨1, 0x01, [], 0⟩]
      ∧ (after (.frameReceived ⟨false, .low, 0x8C, .high⟩) helloAlmostTaken).cmd.accepted = 1 := by
  decide +kernel
theorem test_wrong_check_is_a_check_error :
    let t := after (.frameReceived ⟨false, .low, 0x8D, .high⟩) helloAlmostTaken
    t.cmd = up.cmd ∧ t.rx.checkErrors = 1 ∧ t.rx.state = .hunt
      ∧ t.notices.queue.map Notice.body = [.linkError .check] := by decide +kernel

theorem test_length_121_is_a_length_error :
    (after (.lengthError ⟨false, .low, 121, .high⟩) { up with rx := { up.rx with
      state := .len, gapExpiry := some 5000 } }).rx.lengthErrors = 1 := by decide +kernel

theorem test_gap_ends_a_frame :
    (after .gapExpiry { up with rx := { up.rx with state := .tag, gapExpiry := some 5000 } }).rx
      = { up.rx with gapErrors := 1 } := by decide +kernel

/-- 9.11: the slot of a reply is FREE once its frame has ended. -/
theorem test_end_of_a_replys_frame_frees_its_slot :
    (after .endOfTransmission { up with
      tx := ⟨.sending (.reply 4) ⟨7, 0x90, [0, 1, 0]⟩, false⟩
      cmd := { up.cmd with slots := up.cmd.slots.set 4 (.sending ⟨0x90, 7, [0, 1, 0]⟩) } }
      ).cmd.slots[4] = .free := by decide +kernel

theorem test_await_timeout_answers_its_entry :
    let t := after (.awaitTimeout 32) { up with cmd := { up.cmd with
      awaits := [⟨32, ⟨1, 9⟩, some 500000, 4⟩], slots := up.cmd.slots.set 4 .reserved } }
    t.cmd.slots[4] = .filled ⟨0x94, 32, [0x0C]⟩ ∧ t.cmd.awaits = [] ∧ t.now = 500000 := by
  decide +kernel

/-! ## Resets (section 12.5, R156, R176, R193) -/

/-- 12.5 step 6: HOLD_LINES keeps OUT0's pin, and READY goes out first. -/
theorem test_soft_reset_holds_the_lines :
    let s := runAt 101 (lineAs 0 ⟨.scheduled, .low, .high, some ⟨99999, none, true⟩⟩ quiet)
    let t := after .resetApplies { s with cmd := { s.cmd with resetPending := some .holdLines } }
    t.lines[0] = ⟨.direct, .low, .high, none⟩ ∧ t.time = Timebase.reset
      ∧ t.tx.state = .sending .notice (noticeFrame (Notice.readyFor .command)) := by decide +kernel

/-- R194: a frame refused at the moment the reset applies has its reply sent before READY. -/
theorem test_a_reply_filled_first_goes_before_ready :
    let s := { quiet with cmd := { quiet.cmd with resetPending := some .plain }, endings := [[]] }
    let t := after .resetApplies s
    t.tx = ⟨.idle, true⟩ ∧ t.notices.queue = [Notice.readyFor .command]
      ∧ (after (.frameReceived ⟨false, .low, 0xED, .high⟩) { t with rx :=
          ⟨.crcLo, 0, 1, 0x7F, [], 0x10ED, 0x10, some 5000, 0, 0, 0, false⟩ }).tx.state
        = .sending (.reply 0) ⟨1, 0xFF, [3]⟩ := by decide +kernel

/-- R179: straps HIGH, LOW. -/
theorem test_power_on_reads_the_straps :
    (after (.powerOn .high .low) (runAt 5 up)).rate = 2
      ∧ (after (.powerOn .high .low) (runAt 5 up)).time = Timebase.reset := by decide +kernel

/-- R150: no notice stands while the RESET pin is held. -/
theorem test_reset_pin_empties_the_notice_queue :
    (after .resetPin State.reset).notices.queue = []
      ∧ (after .resetPin State.reset).pins.resetActive = true := by decide +kernel
theorem test_reset_pin_release_admits_ready :
    (after (.resetPinRelease .low .high) (after .resetPin up)).notices.queue
      = [Notice.readyFor .pin] := by decide +kernel

/-- R155: an offer that a device reset precedes is admitted behind READY, and while the pin is held it
waits. -/
theorem test_an_offer_after_a_device_reset_stands_behind_ready :
    let s := { quiet with offered := [⟨.timeEnd, 9, none⟩] }
    let kept : List Notice := [Notice.readyFor .pin, ⟨.timeEnd, 9, none, none⟩]
    let next := fun s : State => match step s with
      | .next t => t
      | _ => s
    (next (after (.resetPinRelease .low .low) (next (after .resetPin s)))).notices.queue = kept
      ∧ (next (after .resetPin s)).notices.queue = []
      ∧ (next (after (.powerOn .low .low) s)).notices.queue.map Notice.body
        = [.ready .power, .timeEnd] := by decide +kernel

/-- R193: the character time over, READY is the frame of the first boundary. -/
theorem test_first_boundary_after_power_on : after .postResetIdleEnd State.reset = { up with rx := Receiver.reset } := by
  decide +kernel

end Sys2Proof.Tests
end

