-- ==== Sys2Proof/Tests/Witnesses.lean ====
section
/-! SUPPORT. For each statement of Sys2Proof/Certificates/Slice0/Obligations.lean that has hypotheses, a
concrete state and operands that meet them, clause by clause, at the boundary values of the
ranges. The witness of Obligations.X is the theorem witness_X; the invariants share the state `busy`. -/

-- One theorem at a time: kernel checks that wait for each other would each hold a thread of the joined text.
set_option Elab.async false

namespace Sys2Proof.Tests

open Sys2Proof Sys2Proof.Machine

/-- The command i executes now, being the only one queued at s. -/
abbrev Asked (i : Extent → Instr) (s : State) : Prop := Executes i (queuedAs i) (asked i s)

/-- A queued command executes when the RESET pin is not held, nothing is under execution and the
Trigger Table has no claim. -/
theorem runs {i : Extent → Instr} {s : State}
    (h : ((frameOf (i .toReply)).isSome && frameOf (i .oneClaim) == frameOf (i .toReply)
        && extentOf (i .oneClaim) == some .oneClaim && extentOf (i .toReply) == some .toReply
        && !s.pins.resetActive && s.triggers.claim.isNone && s.cmd.progress == .notStarted) = true :=
      by decide +kernel) : Asked i s := by
  simp only [Bool.and_eq_true, Bool.not_eq_true', Option.isNone_iff_eq_none, beq_iff_eq] at h
  obtain ⟨⟨⟨⟨⟨⟨hf, hs⟩, h1⟩, h2⟩, hp⟩, hc⟩, hn⟩ := h
  obtain ⟨kp, hk⟩ := Option.isSome_iff_exists.mp hf
  refine ⟨⟨⟨hp, ?_, hn⟩, fun _ => hc⟩, rfl, fun go => ?_, fun go => by cases go <;> assumption⟩
  · show interpreterBusy (asked i s) = false
    simp [interpreterBusy, asked, hc]
  · cases go <;> simp [queuedAs, hs, hk]

/-- Every slot of the table is live. -/
def crowded : State :=
  holding ((List.finRange 64).map (fun i => recordOf i .mark 10000000 .none none i.val)) (runAt 5 up)

/-! ## The step, the frames and every host command -/

theorem witness_StepRunsTheFrontCommand :
    (({ up with pending := [.stop .oneClaim, .start .low .toReply] } : State)).pending
      = .stop .oneClaim :: [.start .low .toReply] := by decide

theorem witness_CommandFramesAndTheirReadingAgree :
    frameOf (.setTime 0xFFFFFFFFFFFF .oneClaim) = some (9, [255, 255, 255, 255, 255, 255])
      ∧ commandOf .high .low .toReply 0x0A [] = some (.start .high .toReply)
      ∧ commandOf .high .low .oneClaim 0x3F [9] = some (.ack 9) := by decide +kernel

theorem witness_SentFrameIsReceivedWhole :
    ((⟨1, 0x7F, List.replicate 120 0xC3⟩ : Frame).payload.length ≤ Config.maxPayload
        ∧ up.rx.state = .hunt)
      ∧ up.tx.state = .sending .notice ⟨0, 0xF0, noticeBytes ⟨.ready .power, 0, none, none⟩⟩
      ∧ quiet.tx.state = .idle ∧ State.reset.tx.state = .postReset := by decide +kernel

theorem witness_WrongLengthIsAnsweredBadLength :
    let s := { requested with cmd := { up.cmd with queue := [⟨7, kindTriggerStatus, [1, 2], 0⟩] } }
    (∀ go, frameOf (.triggerStatus 1 go) = some (kindTriggerStatus, [1])
        ∧ extentOf (.triggerStatus 1 go) = some go)
      ∧ kindTriggerStatus ≠ kindAck ∧ MayStart s
      ∧ s.cmd.queue.head? = some ⟨7, kindTriggerStatus, [1, 2], 0⟩ ∧ [1, 2].length ≠ [1].length := by
  refine ⟨fun go => by cases go <;> decide, by decide, ⟨rfl, by decide +kernel, rfl⟩, rfl, by decide⟩

theorem witness_OutOfRangeFieldIsAnsweredBadField :
    (Asked (.read 9 ·) up ∧ ∀ go, wellFormed (.read 9 go) = false)
      ∧ (Asked (.window 0 4096 4095 0 ·) up ∧ ∀ go, wellFormed (.window 0 4096 4095 0 go) = false)
      ∧ (queuedAs (.read 9 ·)).kind ≠ kindAck ∧ (queuedAs (.window 0 4096 4095 0 ·)).kind ≠ kindAck :=
  ⟨⟨runs, fun go => by cases go <;> decide⟩, ⟨runs, fun go => by cases go <;> decide⟩,
    by decide +kernel, by decide +kernel⟩

/-- IN7's sample of the period that is ending has been taken. -/
def sampleAhead : State := channelAs 7 ⟨Channel.reset.config, .priming 0, 0, 0, .ahead⟩ up

/-- The last period was a tick, and IN0's sample of it is due. -/
def sampleDue : State :=
  channelAs 0 ⟨Channel.reset.config, .priming 0, 0, 0, .due⟩
    { up with time := { up.time with ticked := true } }

theorem witness_CommandOutOfTurnChangesNothing :
    let clearing := { up with triggers := { up.triggers with claim := some (.clearing [⟨1, 0⟩] 1) } }
    let waiting := asked (.triggerStatus 2 ·) requested
    let held := asked (.setTime 0 ·) sampleAhead
    frameOf (.read 1 .toReply) = some (kindRead, [1]) ∧ kindRead ≠ kindAck
      ∧ (after .resetPin up).pins.resetActive = true ∧ interpreterBusy clearing = true
      ∧ up.cmd.queue = []
      ∧ ((asked (.stop ·) up).cmd.queue.head? = some (queuedAs (.stop ·))
        ∧ (queuedAs (.stop ·)).kind ≠ kindRead)
      ∧ ((asked (.read 2 ·) up).cmd.queue.head? = some (queuedAs (.read 2 ·))
        ∧ (queuedAs (.read 2 ·)).payload.length = [(1 : Byte)].length
        ∧ (queuedAs (.read 2 ·)).payload ≠ [1])
      ∧ (∀ r, waiting.cmd.progress ≠ .replying r)
      ∧ (frameOf (.triggerStatus 2 .oneClaim) = some (kindTriggerStatus, [2])
        ∧ waiting.cmd.queue.head? = some (queuedAs (.triggerStatus 2 ·))
        ∧ (queuedAs (.triggerStatus 2 ·)).payload.length = [(2 : Byte)].length
        ∧ kindTriggerStatus ∈ triggerKinds ∧ waiting.triggers.claim ≠ none)
      ∧ (∀ r, held.cmd.progress ≠ .replying r)
      ∧ (held.cmd.queue.head? = some (queuedAs (.setTime 0 ·))
        ∧ (frameOf (.setTime 0 .toReply)).map (fun x => x.2.length)
          = some (queuedAs (.setTime 0 ·)).payload.length
        ∧ (0 : BitVec 48).toNat ≠ Config.maxTime ∧ held.time.run = .stopped
        ∧ held.channels[7].sampling = .ahead) := by
  intro clearing waiting held
  have notReplying : ∀ r, waiting.cmd.progress ≠ .replying r := fun _ => nofun
  have notHeld : ∀ r, held.cmd.progress ≠ .replying r := fun _ => nofun
  simp only [ne_eq, notReplying, notHeld, not_false_eq_true, implies_true, true_and]
  decide +kernel

theorem witness_HelloStatusAndGetTimeOnlyReply :
    let read := fun p => { asked (.status ·) up with
      cmd := { (asked (.status ·) up).cmd with progress := p } }
    let got : Nat → List Payload := fun n => List.replicate n [0]
    let r : Reply := ⟨0x82, 1, [0]⟩
    Asked (.hello ·) up ∧ Asked (.getTime ·) up
      ∧ ((asked (.status ·) up).pins.resetActive = false
        ∧ interpreterBusy (asked (.status ·) up) = false
        ∧ (asked (.status ·) up).cmd.queue.head? = some (queuedAs (.status ·))
        ∧ (queuedAs (.status ·)).kind = 0x02 ∧ (queuedAs (.status ·)).payload = []
        ∧ (asked (.status ·) up).cmd.progress = .notStarted ∧ (got 0).length < 14)
      ∧ ((read (.reading (got 13))).cmd.progress = .reading (got 13) ∧ (got 13).length < 14)
      ∧ ((read (.reading (got 14))).cmd.progress = .reading (got 14) ∧ (got 14).length = 14)
      ∧ ((read (.replying r)).cmd.progress = .replying r
        ∧ interpreterBusy (read (.replying r)) = false
        ∧ frameOf (.status .oneClaim)
          = some ((queuedAs (.status ·)).kind, (queuedAs (.status ·)).payload)
        ∧ (queuedAs (.status ·)).kind ≠ kindAck) :=
  ⟨runs, runs, by decide +kernel⟩

theorem witness_ListingCommandsOnlyReply :
    Asked (.listActions 255 ·) up ∧ Asked (.lineStatus ·) up
      ∧ (Asked (.channelStatus 7 ·) up ∧ (7 : Byte).toNat = (7 : Fin 8).val)
      ∧ (Asked (.triggerStatus 15 ·) up ∧ (15 : Byte).toNat = (15 : Fin 16).val)
      ∧ (Asked (.read 8 ·) up ∧ inRange (.read 8 ·) = true ∧ (asked (.read 8 ·) up).stream.state = .off)
      ∧ (Asked (.read 1 ·) (streamAs (streamOn [] none 0 1) up) ∧ inRange (.read 1 ·) = true
          ∧ (streamAs (streamOn [] none 0 1) up).stream.state ≠ .off) :=
  ⟨runs, runs, ⟨runs, by decide⟩, ⟨runs, by decide⟩, ⟨runs, by decide, by decide +kernel⟩,
    ⟨runs, by decide, by decide +kernel⟩⟩

/-! ## The timebase -/

theorem witness_ClockStopAndGateSetTheTimebase :
    let ahead := sampleAhead
    (Asked (.clock 0 2 ·) ahead ∧ inRange (.clock 0 2 ·) = true
        ∧ (asked (.clock 0 2 ·) ahead).time.run = .stopped
        ∧ (asked (.clock 0 2 ·) ahead).channels[7].sampling = .ahead)
      ∧ (Asked (.clock 1 128 ·) up ∧ inRange (.clock 1 128 ·) = true
        ∧ (asked (.clock 1 128 ·) up).time.run = .stopped)
      ∧ (Asked (.clock 0 1 ·) (runAt 1 up) ∧ inRange (.clock 0 1 ·) = true
        ∧ (asked (.clock 0 1 ·) (runAt 1 up)).time.run ≠ .stopped)
      ∧ Asked (.stop ·) (runAt 1 up)
      ∧ (Asked (.gate 1 1 .low ·) (runAt 1 up) ∧ inRange (.gate 1 1 .low ·) = true) :=
  ⟨⟨runs, by decide, by decide +kernel⟩, ⟨runs, by decide, by decide +kernel⟩,
    ⟨runs, by decide, by decide +kernel⟩, runs,
    ⟨runs, by decide⟩⟩

theorem witness_SetTimeReplacesTheValueAndEndsPassedPulses :
    let last : Extent → Instr := (.setTime 0xFFFFFFFFFFFE ·)
    let ofNoTick := channelAs 0 ⟨Channel.reset.config, .priming 0, 0, 0, .due⟩ up
    inRange last = true
      ∧ (∀ s ∈ [up, ofNoTick], Asked last s ∧ (asked last s).time.run = .stopped
        ∧ ∀ n : Fin 8, (asked last s).channels[n].sampling ≠ .ahead
          ∧ ((asked last s).channels[n].sampling = .due → (asked last s).time.ticked = false))
      ∧ (Asked last sampleAhead ∧ (asked last sampleAhead).time.run = .stopped
        ∧ (asked last sampleAhead).channels[7].sampling = .ahead)
      ∧ (Asked last sampleDue ∧ (asked last sampleDue).time.run = .stopped
        ∧ (asked last sampleDue).channels[0].sampling = .due
        ∧ (asked last sampleDue).time.ticked = true)
      ∧ (Asked last (runAt 1 up) ∧ (asked last (runAt 1 up)).time.run ≠ .stopped) := by
  intro last ofNoTick
  refine ⟨by decide, fun s h => ?_, ⟨runs, by decide +kernel⟩, ⟨runs, by decide +kernel⟩,
    ⟨runs, by decide +kernel⟩⟩
  simp only [List.mem_cons, List.not_mem_nil, or_false] at h
  rcases h with rfl | rfl
  all_goals exact ⟨runs, by decide +kernel⟩

theorem witness_StartEntersARunAfterTheLateWalk :
    let s := asked (.start .low ·) (stopAt Config.maxTime up)
    let u := asked (.start .low ·) (stopAt (Config.maxTime - 1) up)
    (Asked (.start .low ·) (runAt 1 up) ∧ (asked (.start .low ·) (runAt 1 up)).time.run ≠ .stopped)
      ∧ (Asked (.start .low ·) (stopAt Config.maxTime up) ∧ s.time.run = .stopped
          ∧ Config.maxTime ≤ s.time.value)
      ∧ (Asked (.start .low ·) (stopAt (Config.maxTime - 1) up) ∧ u.time.run = .stopped
          ∧ u.time.value < Config.maxTime) :=
  ⟨⟨runs, by decide +kernel⟩, ⟨runs, by decide +kernel, by decide +kernel⟩,
    ⟨runs, by decide +kernel, by decide +kernel⟩⟩

/-- Three records about value 10: one still to come, and a FIRE and a SKIP record due at it. -/
def walked : State :=
  stopAt 10 (holding [recordOf 1 .mark 10 .none none 0,
    { recordOf 2 .mark 10 .none none 1 with body := ⟨.mark, none, .none, .skip, none⟩ },
    recordOf 3 .mark 11 .none none 2] up)

theorem witness_LateWalkSettlesEveryRecordDue :
    walked.table.records.Pairwise (fun a b => a.handle ≠ b.handle)
      ∧ (∃ r ∈ walked.table.records, walked.time.value < r.due)
      ∧ (∃ r ∈ walked.table.records, r.due ≤ walked.time.value ∧ r.body.late = .fire)
      ∧ (∃ r ∈ walked.table.records, r.due ≤ walked.time.value ∧ r.body.late = .skip) := by
  decide +kernel

theorem witness_PeriodsThatAreNotTicksKeepTheValue :
    let halfway := { up with time := { up.time with prescaler := 2 } }
    let gated := runAt 5 { up with time := { up.time with gating := true } }
    (∀ s ∈ [halfway, up, gated], ∀ n : Fin 8, s.channels[n].sampling ≠ .due)
      ∧ (halfway.pins.resetActive = false ∧ halfway.time.count + 1 < halfway.time.prescaler)
      ∧ (up.pins.resetActive = false ∧ up.time.prescaler ≤ up.time.count + 1 ∧ up.time.run = .stopped)
      ∧ (gated.pins.resetActive = false
          ∧ gated.time.prescaler ≤ gated.time.count + 1 ∧ gated.time.run ≠ .stopped
          ∧ gated.time.gating = true ∧ Level.low ≠ gated.time.polarity) :=
  by decide +kernel

theorem witness_TickEndsPulsesThenFiresTheDueRecords :
    let s := runAt (Config.maxTime - 2) { up with time := { up.time with gating := true } }
    let last := runAt (Config.maxTime - 1) up
    (∀ x ∈ [s, last], ∀ n : Fin 8, x.channels[n].sampling ≠ .due)
      ∧ (s.pins.resetActive = false ∧ s.time.prescaler ≤ s.time.count + 1 ∧ s.time.run ≠ .stopped
        ∧ (s.time.gating = true → Level.high = s.time.polarity)
        ∧ s.time.value + 1 ≠ Config.maxTime)
      ∧ (last.pins.resetActive = false ∧ last.time.prescaler ≤ last.time.count + 1
        ∧ last.time.run ≠ .stopped ∧ (last.time.gating = true → Level.low = last.time.polarity)
        ∧ last.time.value + 1 = Config.maxTime) := by decide +kernel

/-! ## Firing and leaving -/

theorem witness_FiringOnALineOrTheSamplerIsAnswered :
    let acquiring := { up with sampler := { up.sampler with
      conv := .acquiring ⟨0, 5, none, false⟩ 10
      inputs := up.sampler.inputs.set 3 ⟨0, 4095, true, none, 65535⟩ } }
    up.lines[7].mode = .direct
      ∧ (lineAs 7 ⟨.scheduled, .low, .high, some ⟨9, none, true⟩⟩ up).lines[7].mode = .scheduled
      ∧ (lineAs 0 ⟨.scheduled, .low, .low, none⟩ up).lines[0].mode = .scheduled
      ∧ up.sampler.conv = .off
      ∧ ({ up with sampler := { up.sampler with conv := .idle } } : State).sampler.conv = .idle
      ∧ acquiring.sampler.conv.takenUp = true ∧ acquiring.sampler.inputs[3].busyMiss = 65535
      ∧ Converter.takenUp .recovering = true := by decide +kernel

theorem witness_MarkFiringReportsAndRetimesOrLeaves :
    let once := recordOf 1 .mark 9 .each (some 4) 0
    let train := fun (period : Nat) => { once with
      body := ⟨.mark, some ⟨period, 0⟩, .each, .fire, some 4⟩, remaining := 0 }
    once.remaining = 1
      ∧ ((train 1).remaining ≠ 1
          ∧ (train 1).body.repeats = some ⟨1, 0⟩ ∧ Config.maxTime < Config.maxTime + 1)
      ∧ ((train 1).body.repeats = some ⟨1, 0⟩ ∧ (Config.maxTime - 1) + 1 ≤ Config.maxTime) := by
  decide +kernel

/-- An await on each of two records, one of which has left and is reported. -/
def reported : State :=
  { holding [recordOf 6 .mark 9 .each none 0] quiet with
    cmd := { quiet.cmd with
      awaits := [⟨31, ⟨1, 63⟩, none, 15⟩, ⟨32, ⟨1, 6⟩, none, 4⟩]
      slots := (quiet.cmd.slots.set 15 .reserved).set 4 .reserved }
    removals := [⟨⟨1, 63⟩, .range⟩, ⟨⟨1, 5⟩, .done⟩] }

theorem witness_RemovalTellsEveryBlockThatHeldTheRecord :
    reported.removals = ⟨⟨1, 63⟩, .range⟩ :: [⟨⟨1, 5⟩, .done⟩] ∧ (heldSlots reported.cmd).Nodup
      ∧ (∃ a ∈ reported.cmd.awaits, a.handle = ⟨1, 63⟩)
      ∧ (∀ a ∈ reported.cmd.awaits, a.handle = ⟨1, 63⟩ → a.slot ≠ 4)
      ∧ reported.removals ≠ [] ∧ quiet.removals = [] := by decide +kernel

/-- R192, a reply that joins the reply queue and a boundary: with the boundary first the FIRED, or the
FIRED and the ENDED, of a tick go into the Notice Queue, FIRED is sent, and the await's answer waits;
with the usual ending the answer is sent. -/
theorem test_a_boundary_may_come_before_an_awaits_answer :
    let s := runAt 8 { holding [recordOf 63 .mark 9 .each none 0] quiet with
      cmd := { quiet.cmd with
        awaits := [⟨31, ⟨1, 63⟩, none, 15⟩], slots := quiet.cmd.slots.set 15 .reserved } }
    let t := fun endings => after (.tickClockPeriod .low) { s with endings := endings }
    let fired : Notice := ⟨.fired ⟨1, 63⟩ .normal 1, 9, none, none⟩
    let ended : Notice := ⟨.ended ⟨1, 63⟩ .done, 9, none, none⟩
    ((t [[.offer .actionTable, .boundary]]).tx.state = .sending .notice (noticeFrame fired)
        ∧ (t [[.offer .actionTable, .boundary]]).cmd.replyQueue = [15])
      ∧ ((t [[.offers, .boundary]]).tx.state = .sending .notice (noticeFrame fired)
        ∧ (t [[.offers, .boundary]]).notices.queue = [ended])
      ∧ (t []).tx.state = .sending (.reply 15) ⟨31, 0x94, [0, 1, 63, 0]⟩
      ∧ (t []).notices.queue = [fired, ended] := by decide +kernel

/-! ## The Action Table's commands -/

theorem witness_ScheduleAdmitsOneRecordOrRefuses :
    let at' := fun (due : BitVec 48) (late : Byte) =>
      (⟨⟨5, 0, 0, 0, 0, 0, 0, late, 0⟩, 0, due⟩ : ScheduleFields)
    let past : ScheduleFields := ⟨⟨5, 0, 0, 0, 0, 0, 0, 0, 0⟩, 1, 0xFFFFFFFFFFFF⟩
    let mark : Template := ⟨.mark, none, .none, .fire, none⟩
    (inRange (.schedule past ·) = true ∧ readBody past.action = some mark
        ∧ Asked (.schedule past ·) (runAt 1 up)
        ∧ Config.maxTime < (asked (.schedule past ·) (runAt 1 up)).time.value + past.dueValue.toNat)
      ∧ (Asked (.schedule (at' 9 0) ·) crowded ∧ (at' 9 0).dueValue.toNat ≤ Config.maxTime
        ∧ ∀ k : Fin 64, ∃ r ∈ (asked (.schedule (at' 9 0) ·) crowded).table.records,
            r.handle.slot = k)
      ∧ (inRange (.schedule (at' 5 1) ·) = true
        ∧ readBody (at' 5 1).action = some { mark with late := .skip }
        ∧ Asked (.schedule (at' 5 1) ·) (runAt 5 up) ∧ (runAt 5 up).time.run ≠ .stopped
        ∧ (at' 5 1).dueValue.toNat ≤ (runAt 5 up).time.value ∧ (at' 5 1).action.late = 1)
      ∧ (inRange (.schedule (at' 0xFFFFFFFFFFFF 0) ·) = true
        ∧ readBody (at' 0xFFFFFFFFFFFF 0).action = some mark
        ∧ Asked (.schedule (at' 0xFFFFFFFFFFFF 0) ·) (runAt 5 up)
        ∧ (at' 0xFFFFFFFFFFFF 0).dueValue.toNat = Config.maxTime ∧ (runAt 5 up).table.records = []) :=
  ⟨⟨by decide, by decide +kernel, runs, by decide +kernel⟩,
    ⟨runs, by decide +kernel, by decide +kernel⟩,
    ⟨by decide, by decide +kernel, runs, by decide +kernel, by decide +kernel, by decide⟩,
    ⟨by decide +kernel, by decide +kernel, runs, by decide +kernel, by decide +kernel⟩⟩

theorem witness_CancelAndCancelLineRemoveRecords :
    let live := holding [recordOf 63 (.set 7) 9 .none none 0] up
    ((255 : Byte) ≠ 0 ∧ (⟨255, 0⟩ : Handle).gen = 255 ∧ (0 : Byte).toNat = (⟨255, 0⟩ : Handle).slot.val
        ∧ Asked (.cancel 255 0 ·) up
        ∧ ∀ r ∈ (asked (.cancel 255 0 ·) up).table.records, r.handle ≠ ⟨255, 0⟩)
      ∧ ((63 : Byte).toNat = (⟨1, 63⟩ : Handle).slot.val ∧ Asked (.cancel 1 63 ·) live
        ∧ (asked (.cancel 1 63 ·) live).table.records.find? (fun r => r.handle = ⟨1, 63⟩)
            = some (recordOf 63 (.set 7) 9 .none none 0))
      ∧ ((7 : Byte).toNat = (7 : Fin 8).val ∧ inRange (.cancelLine 7 0 ·) = true
        ∧ Asked (.cancelLine 7 0 ·) live
        ∧ inRange (.cancelLine 7 1 ·) = true ∧ Asked (.cancelLine 7 1 ·) live
        ∧ live.table.records.Pairwise (fun a b => a.handle ≠ b.handle)) :=
  ⟨⟨by decide, by decide, by decide, runs, by decide +kernel⟩, ⟨by decide, runs, by decide +kernel⟩,
    ⟨by decide, by decide, runs, by decide, runs, by decide +kernel⟩⟩

/-! ## Lines and channels -/

theorem witness_LineSetsModeAndIdleLevel :
    let s := lineAs 7 ⟨.scheduled, .low, .high, some ⟨9, none, false⟩⟩ up
    (inRange (.line 7 1 1 ·) = true ∧ Asked (.line 7 1 1 ·) s
        ∧ (asked (.line 7 1 1 ·) s).lines[7].pulse.isSome = true
        ∧ Level.high ≠ (asked (.line 7 1 1 ·) s).lines[7].idle)
      ∧ (inRange (.line 7 0 0 ·) = true ∧ Asked (.line 7 0 0 ·) s
        ∧ Level.low = (asked (.line 7 0 0 ·) s).lines[7].idle)
      ∧ (Asked (.line 7 1 1 ·) up ∧ (asked (.line 7 1 1 ·) up).lines[7].pulse.isSome = false) :=
  ⟨⟨by decide, runs, by decide +kernel, by decide +kernel⟩, ⟨by decide, runs, by decide +kernel⟩,
    ⟨runs, by decide +kernel⟩⟩

theorem witness_DriveSetsADirectLinesLevel :
    let scheduled := lineAs 7 ⟨.scheduled, .low, .low, none⟩ up
    Asked (.drive 8 0 ·) up ∧ Asked (.drive 0 2 ·) up
      ∧ (Asked (.drive 7 1 ·) scheduled ∧ (asked (.drive 7 1 ·) scheduled).lines[7].mode = .scheduled)
      ∧ (Asked (.drive 7 1 ·) up ∧ (asked (.drive 7 1 ·) up).lines[7].mode = .direct)
      ∧ (Asked (.drive 7 0 ·) up ∧ (asked (.drive 7 0 ·) up).lines[7].level = .low) :=
  ⟨runs, runs, ⟨runs, by decide +kernel⟩, ⟨runs, by decide +kernel⟩, ⟨runs, by decide +kernel⟩⟩

theorem witness_ChannelConfiguresAnOffChannel :
    let f : ChannelFields := ⟨7, 1, 2, 255, 15, 0⟩
    let cfg : ChannelConfig := ⟨.edge, .both, 255, 15, false⟩
    let armed := channelAs 7 ⟨cfg, .armed .low none, 0, 0, .inStep⟩ up
    readChannel f = some (7, cfg)
      ∧ (Asked (.channel f .high ·) up ∧ (asked (.channel f .high ·) up).channels[7].run = .off)
      ∧ (Asked (.channel f .high ·) armed ∧ (asked (.channel f .high ·) armed).channels[7].run ≠ .off) :=
  ⟨by decide +kernel, ⟨runs, by decide +kernel⟩, ⟨runs, by decide +kernel⟩⟩

/-- A PERIOD channel as 4.10 has it at step 3, one transition pending. -/
def periodChannel : Channel :=
  ⟨⟨.period, .rising, 2, 2, true⟩, .armed .low (some ⟨.high, 10050, 1⟩), 1, 0, .due⟩

theorem periodChannel_legal : periodChannel.Legal := by
  constructor <;> simp +decide [periodChannel, Level.flip]

theorem offChannel_legal : Channel.Legal ⟨⟨.period, .rising, 2, 2, true⟩, .off, 0, 1, .inStep⟩ := by
  constructor <;> simp +decide

theorem witness_ChannelOffDiscardsTheWorkingState :
    let off := channelAs 7 ⟨⟨.period, .rising, 2, 2, true⟩, .off, 0, 1, .inStep⟩ up
    Asked (.channelOff 8 ·) up ∧ (8 : Byte).toNat > 7
      ∧ Asked (.channelOff 7 ·) (channelAs 7 periodChannel up)
      ∧ (Asked (.channelOff 7 ·) off ∧ (asked (.channelOff 7 ·) off).channels[7]
        = ⟨⟨.period, .rising, 2, 2, true⟩, .off, 0, 1, .inStep⟩) :=
  ⟨runs, by decide, runs, runs, by decide +kernel⟩

/-- Channel 0 of `up` with this filter and run state, RISING, its sample due. -/
def sampled (mode : ChannelMode) (filter : Nat) (run : ChannelRun) : State :=
  runAt 9 (channelAs 0 ⟨⟨mode, .rising, 1, filter, true⟩, run, 0, 0, .due⟩ up)

/-- Channel 0 ARMED with filter 1, its samples so placed, at this prescaler. -/
def placed (place : Sampling) (prescaler : Nat) : State :=
  { channelAs 0 ⟨⟨.edge, .rising, 1, 1, true⟩, .armed .low none, 0, 0, place⟩ up with
    time := { up.time with prescaler := prescaler } }

theorem witness_SampleThatCountsNothingMovesTheFilterOnly :
    (up.pins.resetActive = false ∧ up.channels[0].run = .off)
      ∧ (placed .ahead 1).channels[0].sampling = .ahead
      ∧ ((placed .inStep 2).channels[0].sampling = .inStep
        ∧ (placed .inStep 2).time.count + 1 < (placed .inStep 2).time.prescaler)
      ∧ ((placed .inStep 1).pins.resetActive = false ∧ (placed .inStep 1).channels[0].sampling = .inStep
        ∧ (placed .inStep 1).time.prescaler ≤ (placed .inStep 1).time.count + 1
        ∧ (placed .inStep 1).channels[0].run = .armed .low none)
      ∧ (sampled .edge 0 (.priming 0)).channels[0].sampling = .due
      ∧ (sampled .edge 0 (.priming 0)).channels[0].config.edge = .rising
      ∧ ((sampled .edge 0 (.priming 0)).pins.resetActive = false
        ∧ (sampled .edge 0 (.priming 0)).channels[0].run
          = .priming 0)
      ∧ ((sampled .edge 15 (.priming 14)).pins.resetActive = false
        ∧ (sampled .edge 15 (.priming 14)).channels[0].run
          = .priming 14)
      ∧ ((sampled .edge 0 (.armed .low none)).pins.resetActive = false
          ∧ (sampled .edge 0 (.armed .low none)).channels[0].run = .armed .low none)
      ∧ ((sampled .edge 1 (.armed .low none)).pins.resetActive = false
          ∧ (sampled .edge 1 (.armed .low none)).channels[0].run = .armed .low none
          ∧ (sampled .edge 1 (.armed .low none)).channels[0].config.filter ≠ 0)
      ∧ ((sampled .edge 2 (.armed .low (some ⟨.high, 8, 0⟩))).pins.resetActive = false
          ∧ (sampled .edge 2 (.armed .low (some ⟨.high, 8, 0⟩))).channels[0].run
              = .armed .low (some ⟨.high, 8, 0⟩) ∧ 0 + 1 < 2)
      ∧ ((sampled .period 2 (.measuring .low none 3)).pins.resetActive = false
          ∧ (sampled .period 2 (.measuring .low none 3)).channels[0].run = .measuring .low none 3)
      ∧ ((sampled .period 2 (.measuring .low (some ⟨.high, 8, 0⟩) 3)).pins.resetActive = false
          ∧ (sampled .period 2 (.measuring .low (some ⟨.high, 8, 0⟩) 3)).channels[0].run
              = .measuring .low (some ⟨.high, 8, 0⟩) 3) :=
  by decide +kernel

theorem witness_SampleThatCountsTakesTheTransition :
    ((sampled .edge 0 (.armed .low none)).pins.resetActive = false
        ∧ (sampled .edge 0 (.armed .low none)).channels[0].run = .armed .low none
        ∧ (sampled .edge 0 (.armed .low none)).channels[0].sampling = .due
        ∧ Level.high ≠ .low ∧ (sampled .edge 0 (.armed .low none)).channels[0].config.filter = 0)
      ∧ ((sampled .period 2 (.measuring .low (some ⟨.high, 8, 1⟩) 3)).pins.resetActive = false
        ∧ (∃ r, (sampled .period 2 (.measuring .low (some ⟨.high, 8, 1⟩) 3)).channels[0].run
            = .measuring .low (some ⟨.high, 8, 1⟩) r)
        ∧ (sampled .period 2 (.measuring .low (some ⟨.high, 8, 1⟩) 3)).channels[0].config.filter
            ≤ 1 + 1)
      ∧ (let s := channelAs 0 ⟨⟨.edge, .falling, 1, 0, true⟩, .armed .high none, 0, 0, .inStep⟩ up
        s.pins.resetActive = false ∧ s.channels[0].sampling = .inStep
          ∧ s.time.prescaler ≤ s.time.count + 1
          ∧ s.channels[0].run = .armed .high none ∧ s.channels[0].config.filter = 0) :=
  ⟨by decide +kernel, ⟨by decide +kernel, ⟨3, by decide +kernel⟩, by decide +kernel⟩,
    by decide +kernel⟩

theorem witness_TransitionsFormTheModesEvents :
    let divided := channelAs 0 ⟨⟨.edge, .rising, 2, 0, true⟩, .armed .low none, 0, 0, .due⟩ up
    let wide := fun run => channelAs 0 ⟨⟨.width, .high, 1, 0, true⟩, run, 0, 0, .due⟩ up
    let edge := (sampled .edge 0 (.armed .high none)).channels[0]
    let period := fun run => (sampled .period 0 run).channels[0]
    (edge.config.mode = .edge ∧ edge.config.edge = .rising ∧ edge.config.edge ≠ .both)
      ∧ (divided.channels[0].config.edge = .rising
        ∧ divided.channels[0].edgeCount + 1 < divided.channels[0].config.divisor)
      ∧ edge.config.divisor ≤ edge.edgeCount + 1
      ∧ ((period (.armed .high none)).config.mode = .period
        ∧ (period (.armed .high none)).config.divisor ≤ (period (.armed .high none)).edgeCount + 1
        ∧ (period (.armed .high none)).run = .armed .high none)
      ∧ (period (.measuring .high none 3)).run = .measuring .high none 3
      ∧ ((wide (.armed .high none)).channels[0].config.mode = .width
        ∧ (wide (.armed .high none)).channels[0].config.edge = .high
        ∧ (wide (.armed .high none)).channels[0].run = .armed .high none)
      ∧ (wide (.measuring .low none 3)).channels[0].run = .measuring .low none 3 := by
  decide +kernel

/-! ## The sampler -/

theorem witness_SamplerSwitchesTheConverter :
    let taken := { up with sampler := { up.sampler with conv := .acquiring ⟨0, 5, none, false⟩ 10 } }
    (inRange (.sampler 0 2 ·) = true ∧ Asked (.sampler 0 2 ·) taken
        ∧ (2 : Byte).toNat ≠ (asked (.sampler 0 2 ·) taken).sampler.acquisition
        ∧ (asked (.sampler 0 2 ·) taken).sampler.conv.takenUp = true)
      ∧ (inRange (.sampler 1 255 ·) = true ∧ Asked (.sampler 1 255 ·) up
        ∧ (asked (.sampler 1 255 ·) up).sampler.conv.takenUp = false)
      ∧ (inRange (.sampler 0 10 ·) = true ∧ Asked (.sampler 0 10 ·) taken
        ∧ (10 : Byte).toNat = (asked (.sampler 0 10 ·) taken).sampler.acquisition) :=
  ⟨⟨by decide, runs, by decide +kernel⟩, ⟨by decide, runs, by decide +kernel⟩,
    ⟨by decide, runs, by decide +kernel⟩⟩

theorem witness_WindowSetsOneInputAndForgetsItsZone :
    inRange (.window 3 4095 4095 1 ·) = true ∧ Asked (.window 3 4095 4095 1 ·) up
      ∧ (3 : Byte).toNat = (3 : Fin 4).val := ⟨by decide, runs, by decide⟩

theorem witness_ConversionStagesEndInAClassedResult :
    let stage := fun c => ({ up with sampler := { up.sampler with conv := c } } : State)
    let recovering := ({ up with sampler := { up.sampler with
      conv := .recovering, recoveryEnd := some 3 } } : State)
    ((stage (.acquiring ⟨3, 5, none, true⟩ 10)).pins.resetActive = false
        ∧ (stage (.acquiring ⟨3, 5, none, true⟩ 10)).sampler.conv = .acquiring ⟨3, 5, none, true⟩ 10)
      ∧ ((stage (.converting ⟨3, 5, none, true⟩ 4095 10)).pins.resetActive = false
        ∧ (stage (.converting ⟨3, 5, none, true⟩ 4095 10)).sampler.conv
            = .converting ⟨3, 5, none, true⟩ 4095 10)
      ∧ (recovering.pins.resetActive = false ∧ recovering.sampler.recoveryEnd = some 3) :=
  by decide +kernel

/-! ## The Trigger Table -/

/-- A trigger of slot 2 on label 3 with this policy and list, its limit 1. -/
def labelSlot (atLimit : AtLimit) (list : List Handle) : State :=
  slotAs 2 ⟨.defined ⟨.label 3, 1, 1, 1, atLimit, ⟨.mark, none, .none, .fire, none⟩⟩ .armed 1 list, 0⟩
    (runAt 5 up)

theorem witness_TriggerDefinesAndArmMovesASlot :
    let f : TriggerFields := ⟨15, 0, 7, 0, 0, 255, 1, 8, 1, ⟨5, 0, 0, 0, 0, 0, 0, 0, 0⟩⟩
    let d : TriggerDef := ⟨.channel 7, 255, 1, 8, .replaceOldest, ⟨.mark, none, .none, .fire, none⟩⟩
    let taken := slotAs 15 ⟨.defined d .spent 0 [], 0⟩ up
    readTriggerDef f = some (15, d)
      ∧ (Asked (.trigger f ·) up ∧ (asked (.trigger f ·) up).triggers.slots[15].use = .empty)
      ∧ (Asked (.trigger f ·) taken ∧ (asked (.trigger f ·) taken).triggers.slots[15].use ≠ .empty)
      ∧ (inRange (.triggerArm 15 2 ·) = true ∧ Asked (.triggerArm 15 2 ·) up
        ∧ (asked (.triggerArm 15 2 ·) up).triggers.slots[15].use = .empty)
      ∧ (Asked (.triggerArm 15 2 ·) taken
        ∧ (asked (.triggerArm 15 2 ·) taken).triggers.slots[15].use = .defined d .spent 0 []) :=
  ⟨by decide +kernel, ⟨runs, by decide +kernel⟩, ⟨runs, by decide +kernel⟩,
    ⟨by decide, runs, by decide +kernel⟩, ⟨runs, by decide +kernel⟩⟩

theorem witness_TriggerClearEmptiesTheSlotAndCancels :
    let d : TriggerDef := ⟨.label 3, 1, 1, 1, .ignore, ⟨.mark, none, .none, .fire, none⟩⟩
    let s := labelSlot .ignore [⟨1, 0⟩]
    let clearing := fun (l : List Handle) => { asked (.triggerClear 2 1 ·) up with
      triggers := { up.triggers with claim := some (.clearing l 2) } }
    (inRange (.triggerClear 15 0 ·) = true ∧ Asked (.triggerClear 15 0 ·) up
        ∧ (asked (.triggerClear 15 0 ·) up).triggers.slots[15].use = .empty)
      ∧ (Asked (.triggerClear 2 0 ·) s
        ∧ (asked (.triggerClear 2 0 ·) s).triggers.slots[2].use = .defined d .armed 1 [⟨1, 0⟩])
      ∧ (Asked (.triggerClear 2 1 ·) (labelSlot .ignore [])
        ∧ (asked (.triggerClear 2 1 ·) (labelSlot .ignore [])).triggers.slots[2].use
            = .defined d .armed 1 [])
      ∧ (Asked (.triggerClear 2 1 ·) s ∧ (asked (.triggerClear 2 1 ·) s).tx.told = false)
      ∧ ((clearing [⟨1, 0⟩, ⟨1, 1⟩]).pins.resetActive = false
        ∧ (clearing [⟨1, 0⟩, ⟨1, 1⟩]).triggers.claim = some (.clearing (⟨1, 0⟩ :: [⟨1, 1⟩]) 2))
      ∧ ((clearing [⟨1, 1⟩]).triggers.claim = some (.clearing (⟨1, 1⟩ :: []) 2)
        ∧ (clearing [⟨1, 1⟩]).cmd.queue.head? = some (queuedAs (.triggerClear 2 1 ·))) :=
  ⟨⟨by decide, runs, by decide +kernel⟩, ⟨runs, by decide +kernel⟩, ⟨runs, by decide +kernel⟩,
    ⟨runs, by decide +kernel⟩, by decide +kernel, by decide +kernel⟩

/-- A labelled firing handed to the Trigger Table. -/
def labelled (s : State) : State := handing ⟨[], [⟨.label 3, 4⟩], []⟩ s

theorem witness_SourceEventReachesTheMatchingSlots :
    let d := fun p => (⟨.label 3, 1, 1, 1, p, ⟨.mark, none, .none, .fire, none⟩⟩ : TriggerDef)
    let full := labelled (labelSlot .ignore [⟨1, 0⟩])
    let both := slotAs 15 ⟨.defined (d .replaceOldest) .armed 1 [⟨1, 1⟩], 0⟩ full
    let ready := fun (s : State) => s.pins.resetActive = false ∧ s.triggers.claim = none
      ∧ s.handed.events.find? (fun x => decide (x.source.block = .actionTable))
        = some ⟨.label 3, 4⟩
    (ready (labelled up) ∧ ∀ j : Fin 16, (labelled up).triggers.slots[j].use = .empty)
      ∧ (ready (labelled (labelSlot .ignore []))
        ∧ (labelled (labelSlot .ignore [])).triggers.slots[2].use
            = .defined (d .ignore) .armed 1 [] ∧ ([] : List Handle).length < (d .ignore).limit)
      ∧ (ready (labelled (labelSlot .replaceOldest [⟨1, 0⟩]))
        ∧ (labelled (labelSlot .replaceOldest [⟨1, 0⟩])).triggers.slots[2].use
            = .defined (d .replaceOldest) .armed 1 [⟨1, 0⟩])
      ∧ (ready full ∧ full.triggers.slots[2].use = .defined (d .ignore) .armed 1 [⟨1, 0⟩]
        ∧ ∀ j : Fin 16, j ≠ 2 → full.triggers.slots[j].use = .empty)
      ∧ (both.triggers.slots[2].use = .defined (d .ignore) .armed 1 [⟨1, 0⟩]
        ∧ both.triggers.slots[15].use = .defined (d .replaceOldest) .armed 1 [⟨1, 1⟩]) :=
  by decide +kernel

theorem witness_TriggerRequestsAreAnsweredAndTheAnswersTaken :
    let e : SourceEvent := ⟨.label 3, 4⟩
    let r : AdmissionRequest := ⟨2, ⟨.mark, none, .none, .fire, none⟩, 9, none⟩
    let claiming := fun (r : AdmissionRequest) => { labelSlot .replaceOldest [⟨1, 0⟩] with
      triggers := { (labelSlot .replaceOldest [⟨1, 0⟩]).triggers with claim := some (.event e r) } }
    ((claiming r).pins.resetActive = false ∧ (claiming r).triggers.claim = some (.event e r)
        ∧ r.replaces = none)
      ∧ (claiming { r with replaces := some ⟨1, 0⟩ }).triggers.claim
          = some (.event e { r with replaces := some ⟨1, 0⟩ })
      ∧ (claiming r).triggers.slots[r.slot].use
          = .defined ⟨.label 3, 1, 1, 1, .replaceOldest, r.template⟩ .armed 1 [⟨1, 0⟩] := by
  decide +kernel

theorem witness_TableAnswersPlainAndReplacementRequests :
    let full := fun (s : State) => ∀ k : Fin 64, ∃ r ∈ s.table.records, r.handle.slot = k
    Config.maxTime < Config.maxTime + 1 ∧ full crowded ∧ ¬ full (runAt 5 up)
      ∧ ((runAt 5 up).time.run ≠ .stopped ∧ 5 ≤ (runAt 5 up).time.value)
      ∧ up.table.records.find? (fun r => r.handle = ⟨1, 0⟩) = none
      ∧ crowded.table.records.find? (fun r => r.handle = ⟨1, 63⟩)
          = some (recordOf 63 .mark 10000000 .none none 63) := by decide +kernel

/-! ## Stamps and the stream -/

/-- The stream ON with one report of one entry, and one entry WAITING. -/
def streaming (timer : Option Moment) (retries : Nat) (marked : Bool) : State :=
  stamped [entryOf (.inFlight 255) 1, entryOf .waiting 2]
    (streamAs (streamOn [⟨255, [(entryOf .waiting 1).content], marked⟩] timer retries 1) quiet)

theorem witness_StreamSetsConfigurationAndState :
    let other : StreamFields := ⟨1, 8, 250, 1000, 15⟩
    let same : StreamFields := ⟨0, 4, 10, 100, 2⟩
    (inRange (.stream other ·) = true ∧ Asked (.stream other ·) (streaming none 0 false)
        ∧ (asked (.stream other ·) (streaming none 0 false)).stream.state ≠ .off
        ∧ other.batch.toNat ≠ (streaming none 0 false).stream.batch)
      ∧ (Asked (.stream other ·) up ∧ (asked (.stream other ·) up).stream.state = .off)
      ∧ (inRange (.stream same ·) = true ∧ Asked (.stream same ·) (streaming none 0 false)
        ∧ same.batch.toNat = (streaming none 0 false).stream.batch
        ∧ same.hold.toNat = (streaming none 0 false).stream.hold
        ∧ same.interval.toNat = (streaming none 0 false).stream.interval
        ∧ same.retryLimit.toNat = (streaming none 0 false).stream.retryLimit) :=
  ⟨⟨by decide, runs, by decide +kernel⟩, ⟨runs, by decide +kernel⟩,
    ⟨by decide, runs, by decide +kernel⟩⟩

/-- A Stamp Queue of n WAITING entries. -/
def queueOf (n : Nat) : State := stamped (List.replicate n (entryOf .waiting 1)) up

theorem witness_ReleaseRemovesTheOldestEntries :
    (Asked (.release 0 ·) (streaming none 0 false)
        ∧ (asked (.release 0 ·) (streaming none 0 false)).stream.state ≠ .off)
      ∧ (Asked (.release 128 ·) (queueOf 127) ∧ (asked (.release 128 ·) (queueOf 127)).stream.state = .off
        ∧ (queueOf 127).stamps.entries.length < (128 : Byte).toNat)
      ∧ (Asked (.release 128 ·) (queueOf 128)
        ∧ (128 : Byte).toNat ≤ (queueOf 128).stamps.entries.length)
      ∧ (Asked (.release 0 ·) up ∧ (0 : Byte).toNat ≤ up.stamps.entries.length) :=
  ⟨⟨runs, by decide +kernel⟩, ⟨runs, by decide +kernel⟩, ⟨runs, by decide +kernel⟩,
    ⟨runs, by decide +kernel⟩⟩

theorem witness_GoodAckRemovesTheReportsUpToIt :
    let s := handing ⟨[], [], [[255]]⟩ (streaming (some 9) 1 true)
    s.pins.resetActive = false ∧ s.handed.acks = [255] :: [] ∧ s.stream.state = .on
      ∧ s.stream.window = [] ++ ⟨255, [(entryOf .waiting 1).content], true⟩ :: [] := by
  decide +kernel

theorem witness_StaleAckRaisesTheCounterAlone :
    (handing ⟨[], [], [[]]⟩ up).handed.acks = [] :: [] ∧ ([] : Payload).length ≠ 1
      ∧ (handing ⟨[], [], [[3]]⟩ up).handed.acks = [3] :: [] ∧ up.stream.state ≠ .on
      ∧ ((handing ⟨[], [], [[254]]⟩ (streaming none 0 false)).handed.acks = [254] :: []
        ∧ ∀ r ∈ (streaming none 0 false).stream.window, r.sequence ≠ 254)
      ∧ up.pins.resetActive = false
      ∧ Quiet (handing ⟨[], [], [[3]]⟩ (streaming none 0 false)) :=
  by refine ⟨?_, ?_, ?_, ?_, ?_, ?_, rfl, rfl, rfl, rfl⟩ <;> decide +kernel

theorem witness_OfferIsAdmittedOrDroppedAndCounted :
    let o : StampOffer := ⟨.sample 3 4095 .above true none, 9⟩
    let s := fun n => handing ⟨[o], [], []⟩ (queueOf n)
    (s 127).pins.resetActive = false
      ∧ (s 127).handed.offers.find? (fun x => decide (StampBlock.sampler = match x.what with
        | .edge n _ | .width n _ _ | .period n _ _ => .channel n
        | .sample _ _ _ _ _ => .sampler)) = some o
      ∧ (s 127).stamps.entries.length < 128 ∧ 128 ≤ (s 128).stamps.entries.length := by
  decide +kernel

theorem witness_HoldReachedFormsAndSendsAReport :
    let s := streaming none 0 false
    s.pins.resetActive = false ∧ s.stream.state = .on ∧ s.stream.window.length < 4
      ∧ s.stamps.entries.filter (fun x => decide (x.state = .waiting)) = entryOf .waiting 2 :: []
      ∧ s.offered = [] ∧ s.removals = [] ∧ s.endings = [] ∧ s.tx.state = .idle
      ∧ s.cmd.replyQueue = [] ∧ s.cmd.resetPending = none ∧ s.notices.queue = []
      ∧ ∀ r ∈ s.stream.window, r.marked = false := by
  decide +kernel

theorem witness_ExpiryMarksTheWindowOrStalls :
    let below := streaming (some 9) 1 false
    let limit := streaming (some 9) 2 false
    (below.pins.resetActive = false ∧ below.stream.timer = some 9
        ∧ below.stream.retryCount < below.stream.retryLimit)
      ∧ (limit.stream.timer = some 9 ∧ limit.stream.retryLimit ≤ limit.stream.retryCount) := by
  decide +kernel

/-- The offers of one tick to T, 9: an OUT line's TRUNCATED before a record's FIRED; and behind them a
LINK_ERROR and, of another block, a CANCELLED record's ENDED. -/
def offering : List NoticeOffer :=
  [⟨.truncated 7, 9, none⟩, ⟨.fired ⟨1, 63⟩ .normal 1, 9, none⟩, ⟨.linkError .gap, 9, none⟩,
    ⟨.ended ⟨1, 62⟩ .cancelled, 9, none⟩]

theorem witness_NoticeIsAdmittedOrDroppedAndCounted :
    let s := fun n =>
      ({ up with notices := ⟨List.replicate n ⟨.timeEnd, 1, none, none⟩, 0, 0⟩ } : State)
    let u := { up with offered := offering }
    ((s 31).notices.queue.length < 32 ∧ 32 ≤ (s 32).notices.queue.length)
      ∧ (up.offered = [] ∧ u.offered = ⟨.truncated 7, 9, none⟩ :: offering.tail)
      ∧ (∀ o ∈ u.offered, o.body.block ≠ .timebase)
      ∧ (u.offered = offering.take 2 ++ ⟨.linkError .gap, 9, none⟩ :: offering.drop 3
        ∧ (NoticeBody.linkError .gap).block = .linkReceiver
        ∧ (∀ x ∈ offering.take 2, x.body.block ≠ .linkReceiver)
        ∧ ∀ x ∈ offering.take 2, x.sameTick ⟨.linkError .gap, 9, none⟩ = false)
      ∧ (u.offered = offering.take 1 ++ ⟨.fired ⟨1, 63⟩ .normal 1, 9, none⟩ :: offering.drop 2
        ∧ (NoticeBody.fired ⟨1, 63⟩ .normal 1).block = .actionTable
        ∧ (∀ x ∈ offering.take 1, x.body.block ≠ .actionTable)
        ∧ ∃ x ∈ offering.take 1, x.sameTick ⟨.fired ⟨1, 63⟩ .normal 1, 9, none⟩ = true)
      ∧ (let other : NoticeOffer := ⟨.truncated 6, 10, none⟩
        other.body.block = .outputLine 6 ∧ (∀ x ∈ offering, x.body.block ≠ .outputLine 6)
          ∧ ∀ x ∈ offering, x.sameTick other = false) := by
  decide +kernel

/-- R151, R155: the tick's notice is taken behind one whose time was read before it or after it; a
boundary taken first makes room for the 33rd notice, which otherwise is dropped. -/
theorem test_endings_put_claims_in_another_order :
    let s := { quiet with offered := [⟨.timeEnd, 9, none⟩, ⟨.linkError .gap, 8, none⟩] }
    let full := { quiet with
      tx := ⟨.idle, true⟩, offered := [⟨.timeEnd, 9, none⟩]
      notices := ⟨List.replicate 32 ⟨.streamStalled, 1, none, none⟩, 0, 0⟩ }
    (settle { s with endings := [[.offer .linkReceiver, .offers]] }).notices.queue.map Notice.time
        = [8, 9]
      ∧ (settle { s with endings := [[.offers]] }).notices.queue.map Notice.time = [9, 8]
      ∧ (settle { full with endings := [[.boundary, .offers]] }).notices.dropped = 0
      ∧ (settle full).notices.dropped = 1 := by decide +kernel

/-! ## The command block and the link -/

theorem witness_ResetAbortsWhatWaitsAndSetsPending :
    let s := { asked (.reset 1 ·) up with cmd := { (asked (.reset 1 ·) up).cmd with
      queue := [queuedAs (.reset 1 ·), ⟨41, kindStop, [], 1⟩], awaits := [⟨31, ⟨2, 5⟩, none, 3⟩] } }
    inRange (.reset 1 ·) = true ∧ Executes (.reset 1 ·) (queuedAs (.reset 1 ·)) s
      ∧ (heldSlots s.cmd).Nodup :=
  ⟨by decide, ⟨⟨⟨rfl, by decide +kernel, rfl⟩, fun _ => rfl⟩, rfl,
    fun go => by cases go <;> decide +kernel,
    fun go => by cases go <;> rfl⟩, by decide +kernel⟩

/-- An await list of n entries and one live record 1/63. -/
def awaiting (n : Nat) : State :=
  let entry := fun (i : Nat) =>
    (⟨BitVec.ofNat 8 (20 + i), ⟨1, 63⟩, some (5000 + i), Fin.ofNat 16 (i + 1)⟩ : AwaitEntry)
  { holding [recordOf 63 .mark 9 .none none 0] up with
    cmd := { up.cmd with awaits := (List.range n).map entry } }

theorem witness_AwaitWaitsAndTimesOut :
    let a : AwaitEntry := ⟨20, ⟨1, 63⟩, some 5000, 1⟩
    ((1 : Byte) ≠ 0 ∧ (62 : Byte).toNat = (⟨1, 62⟩ : Handle).slot.val
        ∧ Asked (.await 1 62 0 ·) (awaiting 0)
        ∧ ∀ r ∈ (awaiting 0).table.records, r.handle ≠ ⟨1, 62⟩)
      ∧ ((63 : Byte).toNat = (⟨1, 63⟩ : Handle).slot.val ∧ Asked (.await 1 63 65535 ·) (awaiting 8)
        ∧ (∃ r ∈ (awaiting 8).table.records, r.handle = ⟨1, 63⟩)
        ∧ 8 ≤ (asked (.await 1 63 65535 ·) (awaiting 8)).cmd.awaits.length)
      ∧ (Asked (.await 1 63 0 ·) (awaiting 7) ∧ (∃ r ∈ (awaiting 7).table.records, r.handle = ⟨1, 63⟩)
        ∧ (asked (.await 1 63 0 ·) (awaiting 7)).cmd.awaits.length < 8 ∧ (awaiting 7).tx.told = false)
      ∧ ((awaiting 8).pins.resetActive = false
        ∧ (awaiting 8).cmd.awaits.find? (fun x => x.tag = 20 && x.expiry.isSome) = some a
        ∧ a.expiry = some 5000) :=
  ⟨⟨by decide, by decide, runs, by decide +kernel⟩, ⟨by decide, runs, by decide +kernel⟩,
    ⟨runs, by decide +kernel⟩, by decide +kernel⟩

theorem witness_FrameIsSortedByTheFirstRowItMeets :
    let ch : RxChar := ⟨false, .low, 0x8C, .high⟩
    let waiting := { helloAlmostTaken with rx := { helloAlmostTaken.rx with waitHigh := true } }
    (helloAlmostTaken.pins.resetActive = false ∧ helloAlmostTaken.rx.state = .crcLo
        ∧ helloAlmostTaken.rx.waitHigh = false ∧ ch.startMid = .low)
      ∧ (waiting.rx.state = .crcLo ∧ ({ ch with rose := true } : RxChar).rose = true) := by
  decide +kernel

/-- The receive machine in this state, its frame of two payload bytes begun. -/
def receiving (st : RxState) : State :=
  { up with rx := { up.rx with state := st, length := 2, gapExpiry := some 5000 } }

theorem witness_BytesAreTakenByTheirPlaceAndErrorsEndFrames :
    let ch : RxChar := ⟨false, .low, 120, .high⟩
    let waiting := { receiving .len with rx := { (receiving .len).rx with waitHigh := true } }
    (∀ st ∈ [RxState.len, .tag, .kind, .body, .crcHi, .crcLo, .hunt],
        (receiving st).pins.resetActive = false
        ∧ (receiving st).rx.state = st ∧ (receiving st).rx.waitHigh = false)
      ∧ ch.startMid = .low ∧ ch.data.toNat ≤ 120 ∧ 120 < (121 : Byte).toNat
      ∧ (waiting.pins.resetActive = false ∧ waiting.rx.waitHigh = true ∧ ch.rose ≠ true)
      ∧ (⟨true, .high, 0, .high⟩ : RxChar).startMid = .high
      ∧ ((receiving .len).rx.gapExpiry = some 5000 ∧ (receiving .len).rx.state ≠ .hunt) :=
  by decide +kernel

theorem witness_BoundaryAsksItsSourcesInOrder :
    let r : Reply := ⟨0x81, 7, [0]⟩
    let filled := { quiet with cmd := { quiet.cmd with
      replyQueue := [15], slots := quiet.cmd.slots.set 15 (.filled r) } }
    let pending := { quiet with cmd := { quiet.cmd with resetPending := some .plain } }
    (filled.cmd.replyQueue = 15 :: [] ∧ filled.cmd.slots[15] = .filled r)
      ∧ (pending.cmd.replyQueue = [] ∧ pending.cmd.resetPending.isSome = true)
      ∧ (State.reset.cmd.replyQueue = [] ∧ State.reset.cmd.resetPending = none
        ∧ State.reset.notices.queue = Notice.readyFor .power :: [])
      ∧ ((streaming none 1 true).notices.queue = []
        ∧ (streaming none 1 true).stream.window
            = [] ++ ⟨255, [(entryOf .waiting 1).content], true⟩ :: [])
      ∧ (quiet.notices.queue = [] ∧ eligible quiet = false)
      ∧ ((∀ x ∈ (streaming none 0 false).stream.window, x.marked = false)
        ∧ eligible { streaming none 0 false with now := 10000 } = true
        ∧ eligible { streaming none 0 false with now := 9999 } = false)
      ∧ (let s := stamped (List.replicate 4 (entryOf .waiting 1))
          (streamAs (streamOn [] none 0 1) quiet)
        eligible s = true ∧ s.now = 0
          ∧ eligible { s with stamps := { s.stamps with entries := s.stamps.entries.tail } } = false)
      ∧ (let told := { quiet with tx := ⟨.idle, true⟩ }
        told.tx.told = true ∧ told.tx.state = .idle ∧ quiet.tx.told = false)
      ∧ up.tx.state ≠ .idle ∧ quiet.endings = []
      ∧ ({ quiet with endings := [[]] } : State).endings = [] :: []
      ∧ ({ quiet with endings := [[.offer .reset, .boundary]] } : State).endings
        = [.offer .reset, .boundary] :: [] := by decide +kernel

/-- The state of the last clause, at which nothing is left over from an earlier step. -/
theorem quiet_is_quiet : Quiet quiet := ⟨rfl, rfl, rfl, rfl⟩

theorem witness_EndOfTransmissionTellsItsSource :
    let f : Frame := ⟨0, 0xF1, []⟩
    let sending := fun src s => ({ s with tx := ⟨.sending src f, false⟩ } : State)
    let unmarked := streaming none 0 false
    let untouched := fun (s : State) => s.stream.window = [] ∨ ∃ r ∈ s.stream.window, r.marked = true
    (sending (.reply 15) up).tx.state = .sending (.reply 15) f
      ∧ (sending .notice up).tx.state = .sending .notice f
      ∧ (sending (.resend 255) unmarked).tx.state = .sending (.resend 255) f
      ∧ (sending (.firstSending 255) unmarked).tx.state = .sending (.firstSending 255) f
      ∧ untouched (streaming none 0 true) ∧ untouched up ∧ ¬ untouched unmarked
      ∧ unmarked.stream.timer = none ∧ (streaming (some 9) 0 false).stream.timer.isSome = true
      ∧ State.reset.tx.state = .postReset ∧ up.pins.resetActive = false := by decide +kernel

/-! ## The resets -/

theorem witness_SoftResetAppliesWhenDrained :
    let pending := fun (s : State) =>
      ({ s with cmd := { s.cmd with resetPending := some .holdLines } } : State)
    let drained := fun (s : State) => (∀ i : Fin 16, s.cmd.slots[i] = .free) ∧ s.cmd.replyQueue = []
      ∧ s.tx.state = .idle
    (pending quiet).pins.resetActive = false ∧ (pending quiet).cmd.resetPending = some .holdLines
      ∧ drained (pending quiet) ∧ ¬ drained (pending up)
      ∧ ((pending quiet).offered = [] ∧ (pending quiet).endings = [])
      ∧ (drained { pending quiet with endings := [[]] }
        ∧ ({ pending quiet with endings := [[]] } : State).endings = [] :: []) := by decide +kernel

theorem witness_DeviceResetsSetTheResetValues :
    (after .resetPin up).pins.resetActive = true ∧ HeldAtReset (after .resetPin up) :=
  ⟨by decide +kernel, fun _ => by decide +kernel⟩

theorem witness_EventWithoutItsOccasionChangesNothing :
    let conv := fun c => ({ up with sampler := { up.sampler with conv := c } } : State)
    let ctx : ConvContext := ⟨3, 5, none, true⟩
    let replacing : State := { up with triggers := { up.triggers with
      claim := some (.event ⟨.channel 3, 0⟩ ⟨2, pulseTrigger.template, 9, some ⟨1, 0⟩⟩) } }
    let timed := awaiting 8
    (after .resetPin up).pins.resetActive = true ∧ frameOf .sourcePeriod = none
      ∧ up.pins.resetActive = false ∧ up.time.prescaler ≤ up.time.count + 1
      ∧ (let s := { up with time := { up.time with prescaler := 2 } }
        s.time.count + 1 < s.time.prescaler)
      ∧ (sampled .edge 0 (.priming 0)).channels[0].sampling = .due
      ∧ (up.channels[7].run = .off ∧ (placed .ahead 1).channels[0].sampling = .ahead
        ∧ ((placed .inStep 2).channels[0].sampling = .inStep
          ∧ (placed .inStep 2).time.count + 1 < (placed .inStep 2).time.prescaler))
      ∧ (∀ c ∈ [Converter.off, .idle, .converting ctx 7 9, .recovering],
        (conv c).sampler.conv.code ≠ (Converter.acquiring ctx 9).code)
      ∧ (∀ c ∈ [Converter.off, .idle, .acquiring ctx 9, .recovering],
        (conv c).sampler.conv.code ≠ (Converter.converting ctx 7 9).code)
      ∧ up.sampler.recoveryEnd = none
      ∧ ((∀ e ∈ (handing ⟨[], [⟨.label 7, 1⟩], []⟩ up).handed.events, e.source.block ≠ .sampler)
        ∧ requested.triggers.claim.isSome = true)
      ∧ ((∃ e r, replacing.triggers.claim = some (.event e r) ∧ r.replaces.isSome = true)
        ∧ (∃ e r, requested.triggers.claim = some (.event e r) ∧ r.replaces = none)
        ∧ up.triggers.claim = none)
      ∧ (∀ o ∈ (handing ⟨[⟨.edge 3 .rising, 1⟩], [], []⟩ up).handed.offers, o.what.block ≠ .channel 4)
      ∧ ((handing ⟨[], [], [[3]]⟩ up).handed.acks = [3] :: [] ∧ [(3 : Byte)].length = 1
        ∧ [(3 : Byte)] ≠ [4])
      ∧ (up.stream.state ≠ .on
        ∧ (∀ e ∈ (streamAs (streamOn [] none 0 1) up).stamps.entries, e.state ≠ .waiting)
        ∧ (let r : Report := ⟨1, [], false⟩
          4 ≤ (streamAs (streamOn [r, r, r, r] none 0 1) up).stream.window.length))
      ∧ up.stream.timer = none
      ∧ (helloAlmostTaken.rx.state ≠ .len ∧ (receiving .len).rx.state ≠ .crcLo
        ∧ (⟨true, .low, 120, .high⟩ : RxChar).data.toNat ≤ 120
        ∧ (State.reset.rx.waitHigh = true ∧ (⟨false, .low, 121, .high⟩ : RxChar).rose = false)
        ∧ (⟨true, .high, 121, .high⟩ : RxChar).startMid = .high)
      ∧ up.rx.state = .hunt
      ∧ (quiet.tx.state = .idle ∧ State.reset.tx.state = .postReset)
      ∧ ((∃ a ∈ timed.cmd.awaits, a.expiry ≠ none)
        ∧ ∀ a ∈ timed.cmd.awaits, a.tag = 255 → a.expiry = none)
      ∧ (up.cmd.resetPending = none ∧ up.tx.state ≠ .idle
        ∧ (asked (.stop ·) up).cmd.slots[0] ≠ .free
        ∧ { up.cmd with replyQueue := [15] }.replyQueue ≠ [])
      ∧ up.pending = [] ∧ (after .resetPin up).pending = [] := by
  refine ⟨?_, ?_, ?_, ?_, ?_, ?_, ?_, ?_, ?_, ?_, ?_, ⟨⟨_, _, rfl, rfl⟩, ⟨_, _, rfl, rfl⟩, rfl⟩, ?_⟩
  all_goals decide +kernel

/-! ## The laws hold in a state with something of everything -/

/-- 6.10's slot 2 with its instance 1/0 live, an await on the host's record 1/1, a running pulse, a
measuring channel, a recovering converter, a report in flight, a queued command and a frame half
received; a tick is the command in front. -/
def busy : State :=
  { lineAs 2 ⟨.scheduled, .low, .high, some ⟨150, none, true⟩⟩ (channelAs 3 periodChannel
      (slotAs 2 ⟨.defined pulseTrigger .armed 2 [⟨1, 0⟩], 0⟩ (runAt 100 (streaming (some 9) 1 false)))) with
    table := { up.table with
      records := [{ recordOf 0 (.pulse 2 40) 200 .last none 0 with
        body := pulseTrigger.template, origin := .trigger 2 }, recordOf 1 .mark 300 .each none 1]
      nextStanding := 2 }
    sampler := { up.sampler with conv := .recovering, recoveryEnd := some 3 }
    cmd := { up.cmd with
      queue := [queuedAs (.stop ·)]
      awaits := [⟨31, ⟨1, 1⟩, none, 3⟩]
      slots := (up.cmd.slots.set 0 .reserved).set 3 .reserved }
    rx := { up.rx with state := .len, check := 0xFFFF, gapExpiry := some 5000 }
    tx := up.tx
    pending := [.tickClockPeriod .high] }

/-- Slot 2 is the one defined slot of `busy`. -/
theorem busy_slots (k : Fin 16) : busy.triggers.slots[k].use = .empty
    ∨ k = 2 ∧ busy.triggers.slots[k].use = .defined pulseTrigger .armed 2 [⟨1, 0⟩] := by
  revert k; decide +kernel

theorem busy_slots_of {k : Fin 16} {d : TriggerDef} {st : ArmState} {n : Nat} {l : List Handle}
    (h : busy.triggers.slots[k].use = .defined d st n l) :
    k = 2 ∧ d = pulseTrigger ∧ st = .armed ∧ n = 2 ∧ l = [⟨1, 0⟩] := by
  rcases busy_slots k with e | ⟨hk, e⟩ <;> rw [e] at h
  · cases h
  · cases h; exact ⟨hk, rfl, rfl, rfl, rfl⟩

theorem pulseTrigger_valid : pulseTrigger.template.Valid :=
  ⟨fun _ _ h => (by cases h; decide), fun _ h => (by cases h)⟩

theorem busy_templates : TemplatesValid busy where
  records := by
    intro r hr
    have : r.body = pulseTrigger.template ∨ r.body = ⟨.mark, none, .each, .fire, none⟩ := by
      revert r; decide +kernel
    rcases this with e | e <;> rw [e]
    · exact pulseTrigger_valid
    · exact ⟨fun _ _ h => (by cases h), fun _ h => (by cases h)⟩
  slots := fun _ _ _ _ _ h => (busy_slots_of h).2.1 ▸ pulseTrigger_valid
  claim := fun _ _ h => by cases h

theorem witness_EveryStepKeepsTheTableInOrder : TableInOrder busy where
  span := ⟨by decide +kernel, by decide +kernel⟩
  templates := busy_templates
  order := by decide +kernel
  slots := by decide +kernel
  standings := by decide +kernel
  admitted := by decide +kernel
  gens := by decide +kernel
  nonzero := by decide +kernel
  due := by decide +kernel
  future := by decide +kernel

/-- The premise `step busy = .next t` of the laws that every step keeps. -/
theorem witness_step_goes_on : ∃ t, step busy = .next t := ⟨_, rfl⟩

theorem busy_pulses (n : Fin 8) (p : Pulse) (h : busy.lines[n].pulse = some p) :
    n = 2 ∧ p = ⟨150, none, true⟩ := by
  have : busy.lines[n].pulse = none ∨ n = 2 ∧ busy.lines[n].pulse = some ⟨150, none, true⟩ := by
    clear h; revert n; decide +kernel
  rcases this with e | ⟨hn, e⟩ <;> rw [e] at h
  · cases h
  · cases h; exact ⟨hn, rfl⟩

theorem witness_EveryStepKeepsPulsesLegalAndAwaitsLive : PulsesLegal busy ∧ AwaitsLive busy :=
  ⟨⟨busy_templates, fun n p h => by
      obtain ⟨rfl, rfl⟩ := busy_pulses n p h
      decide +kernel⟩, ⟨by decide +kernel⟩⟩

theorem resetChannel_legal : Channel.reset.Legal := by
  constructor <;> simp +decide [Channel.reset]

theorem busy_channels : ChannelsLegal busy := by
  intro n
  have h : busy.channels[n] = Channel.reset ∨ busy.channels[n] = periodChannel := by
    revert n; decide +kernel
  rcases h with e | e <;> rw [e]
  · exact resetChannel_legal
  · exact periodChannel_legal

theorem witness_EveryStepKeepsTheInputSideLegal :
    ChannelsLegal busy ∧ SamplerLegal busy ∧ ReceiverLegal busy
      ∧ busy.notices.queue.length ≤ 32
      ∧ (HeldAtReset (after .resetPin busy) ∧ (after .resetPin busy).pins.resetActive = true)
      ∧ sampleAhead.channels[7].sampling = .ahead
      ∧ (sampleDue.channels[0].sampling = .due ∧ sampleDue.time.ticked = true) :=
  ⟨busy_channels, by constructor <;> decide +kernel, by constructor <;> decide +kernel,
    by decide +kernel, ⟨fun _ => by decide +kernel, by decide +kernel⟩, by decide +kernel⟩

theorem witness_EveryStepKeepsTheStreamLegal : StreamLegal busy where
  capacity := by decide +kernel
  entries := ⟨[entryOf .waiting 2], by decide +kernel, by decide +kernel⟩
  window := by decide +kernel
  numbered := by show nextSequenceAfter 255 = 1; decide
  nonzero := by decide +kernel
  sizes := by decide +kernel
  on := by decide +kernel
  timer := by decide +kernel
  batch := by decide +kernel
  hold := by decide +kernel
  interval := by decide +kernel
  retry := by decide +kernel

theorem witness_EveryStepKeepsEverySlotAccountedFor : SlotsLegal busy ∧ HeldAtReset busy :=
  ⟨{ capacity := by decide +kernel
     held := by decide +kernel
     reserved := by decide +kernel
     queued := by decide +kernel
     filled := fun i => by
       have h : busy.cmd.slots[i] = .free ∨ busy.cmd.slots[i] = .reserved := by
         revert i; decide +kernel
       constructor
       · rintro ⟨r, hr⟩; rw [hr] at h; simp at h
       · intro hi; cases hi
     sending := fun i r => by
       have h : busy.cmd.slots[i] = .free ∨ busy.cmd.slots[i] = .reserved := by
         revert i; decide +kernel
       constructor
       · intro hr; rw [hr] at h; simp at h
       · intro hr; cases hr
     tags := by decide +kernel
     pending := by decide +kernel
     clearing := by decide +kernel
     reading := fun _ h => by cases h
     replying := fun _ h => by cases h
     told := fun h => by cases h
     idleReplies := by decide +kernel
     idleNotices := by decide +kernel }, fun h => by cases h⟩

theorem witness_EveryStepKeepsTheInstancesLive : TriggersLegal busy where
  table := witness_EveryStepKeepsTheTableInOrder
  limit := fun _ _ _ _ _ h => by obtain ⟨-, rfl, -, -, rfl⟩ := busy_slots_of h; decide
  nodup := fun _ _ _ _ _ h => by obtain ⟨-, -, -, -, rfl⟩ := busy_slots_of h; decide
  live := fun _ _ _ _ _ h => by
    obtain ⟨rfl, -, -, -, rfl⟩ := busy_slots_of h; decide +kernel
  shots := fun _ _ _ _ _ h => by obtain ⟨-, rfl, rfl, rfl, -⟩ := busy_slots_of h; decide
  request := fun _ _ h => by cases h

end Sys2Proof.Tests
end

section
/-! The output lines' commands: DRIVE (R59). -/

namespace Sys2Proof.Machine

/-! ## Operations on a line -/

/-- A number past the n places is read as none. -/
theorem readIndex_eq_none {n : Nat} {b : Byte} (h : n ≤ b.toNat) : readIndex n b = none :=
  Option.not_isSome_iff_eq_none.1 (by simpa using h)

/-- A byte above 1 is read as no level. -/
theorem readLevel_eq_none {b : Byte} (h : 1 < b.toNat) : readLevel b = none :=
  Option.not_isSome_iff_eq_none.1 (by simpa using h)

/-- The line set is found in its place. -/
@[simp] theorem setLine_lines_self (n : Fin 8) (l : OutputLine) (s : State) :
    (setLine n l s).lines[n.val] = l := by
  simp [setLine]

/-- A line given the level it has changes nothing. -/
theorem setLine_same_level {n : Fin 8} {v : Level} {s : State} (h : s.lines[n].level = v) :
    setLine n { s.lines[n] with level := v } s = s := by
  have hline : { s.lines[n] with level := v } = s.lines[n] := by rw [← h]
  rw [hline]
  simp [setLine]

/-! ## DRIVE -/

/-- The rule that the interpreter applies to a DRIVE (R59). -/
def driveRule (line level : Byte) (c : QueuedCommand) (s : State) : State :=
  match readIndex 8 line, readLevel level with
  | some n, some v =>
      if s.lines[n].mode = .scheduled then answer c .state [] s
      else answer c .ok [] (setLine n { s.lines[n] with level := v } s)
  | _, _ => answer c .badField [] s

/-- A DRIVE that executes runs its rule, and then what is left of the execution. -/
theorem exec_drive {line level : Byte} {c : QueuedCommand} {s : State}
    (h : Executes (.drive line level ·) c s) (go : Extent) :
    exec (.drive line level go) s = finish (goOn go (driveRule line level c s)) :=
  interpret_executes (rule := driveRule line level) h go rfl

/-- A line above 7 or a level above 1 is refused BAD_FIELD. -/
theorem driveRule_badField {line level : Byte} (c : QueuedCommand) (s : State)
    (h : 7 < line.toNat ∨ 1 < level.toNat) :
    driveRule line level c s = answer c .badField [] s := by
  rcases h with hline | hlevel
  · simp [driveRule, readIndex_eq_none hline]
  · simp [driveRule, readLevel_eq_none hlevel]

/-- With fields in range the mode of the line decides. -/
theorem driveRule_inRange {line level : Byte} {n : Fin 8} (c : QueuedCommand) (s : State)
    (hline : line.toNat = n.val) (hlevel : level.toNat ≤ 1) :
    driveRule line level c s =
      if s.lines[n].mode = .scheduled then answer c .state [] s
      else answer c .ok []
        (setLine n { s.lines[n] with level := if level = 0 then .low else .high } s) := by
  simp only [driveRule, readIndex_of hline, readLevel_of hlevel]

/-- A DRIVE whose rule ends in an answer, with the command queue kept, gives that answer. -/
theorem drive_replies {line level : Byte} {c : QueuedCommand} {s u : State} {st : Status}
    {fields : Payload} (h : Executes (.drive line level ·) c s)
    (hrule : driveRule line level c s = answer c st fields u)
    (hqueue : u.cmd.queue = s.cmd.queue) : Replies (.drive line level ·) s c st fields u :=
  replies_of_answer (fun go => hrule ▸ exec_drive h go) (hqueue ▸ h.oldest)

/-- Settles O24, by the cases of the rule: fields out of range, a SCHEDULED line, a DIRECT one. -/
theorem driveSetsADirectLinesLevel : Obligations.DriveSetsADirectLinesLevel := by
  intro line level c s h
  refine ⟨fun hbad => drive_replies h (driveRule_badField c s hbad) rfl, fun n hline hlevel => ?_⟩
  have hrule := driveRule_inRange c s hline hlevel
  constructor
  · intro hmode
    exact drive_replies h (hrule.trans (if_pos hmode)) rfl
  · intro hmode v
    have hdirect : s.lines[n].mode ≠ .scheduled := by rw [hmode]; simp
    refine ⟨setLine n { s.lines[n] with level := v } s,
      drive_replies h (hrule.trans (if_neg hdirect)) (by simp), rfl, ?pin, ?idle, setLine_same_level⟩
    case pin => simp [outPin]
    case idle => simp

end Sys2Proof.Machine
end

section
/-! The Stamp Queue's RELEASE (R131) and the report stream's stale ACK (R141). -/

namespace Sys2Proof.Machine

/-! ## RELEASE -/

/-- The rule that the interpreter applies to a RELEASE (R131). -/
def releaseRule (n : Byte) (c : QueuedCommand) (s : State) : State :=
  if s.stream.state ≠ .off then answer c .state [] s
  else if s.stamps.entries.length < n.toNat then answer c .badField [] s
  else
    let u := s.withStamps { s.stamps with entries := s.stamps.entries.drop n.toNat }
    answer c .ok (be 1 u.stamps.entries.length) u

/-- A RELEASE that executes runs its rule, and then what is left of the execution. -/
theorem exec_release {n : Byte} {c : QueuedCommand} {s : State} (h : Executes (.release n ·) c s)
    (go : Extent) : exec (.release n go) s = finish (goOn go (releaseRule n c s)) :=
  interpret_executes (rule := releaseRule n) h go rfl

/-- The first check: a stream that is not OFF refuses the command. -/
theorem releaseRule_state (n : Byte) (c : QueuedCommand) {s : State} (h : s.stream.state ≠ .off) :
    releaseRule n c s = answer c .state [] s :=
  if_pos h

/-- The second check: more entries asked for than stand. -/
theorem releaseRule_badField {n : Byte} (c : QueuedCommand) {s : State}
    (hoff : s.stream.state = .off) (h : s.stamps.entries.length < n.toNat) :
    releaseRule n c s = answer c .badField [] s := by
  simp [releaseRule, hoff, h]

/-- Past both checks the oldest entries leave, and the count is the one they leave behind. -/
theorem releaseRule_ok {n : Byte} (c : QueuedCommand) {s : State}
    (hoff : s.stream.state = .off) (h : n.toNat ≤ s.stamps.entries.length) :
    releaseRule n c s = answer c .ok [BitVec.ofNat 8 (s.stamps.entries.length - n.toNat)]
      (s.withStamps { s.stamps with entries := s.stamps.entries.drop n.toNat }) := by
  simp [releaseRule, hoff, Nat.not_lt.2 h, be]

/-- A RELEASE whose rule ends in an answer, with the command queue kept, gives that answer. -/
theorem release_replies {n : Byte} {c : QueuedCommand} {s u : State} {st : Status}
    {fields : Payload} (h : Executes (.release n ·) c s)
    (hrule : releaseRule n c s = answer c st fields u)
    (hqueue : u.cmd.queue = s.cmd.queue) : Replies (.release n ·) s c st fields u :=
  replies_of_answer (fun go => hrule ▸ exec_release h go) (hqueue ▸ h.oldest)

/-- Settles O39, by the rule's checks in their order. -/
theorem releaseRemovesTheOldestEntries : Obligations.ReleaseRemovesTheOldestEntries := by
  intro n c s h
  refine ⟨fun hon => ?state, fun hoff hmore => ?badField, fun hoff hstand => ⟨_, rfl, ?ok, ?none⟩⟩
  case state => exact release_replies h (releaseRule_state n c hon) rfl
  case badField => exact release_replies h (releaseRule_badField c hoff hmore) rfl
  case ok => exact release_replies h (releaseRule_ok c hoff hstand) rfl
  case none =>
    rintro rfl
    rfl

/-! ## Stale acknowledgements -/

/-- An acknowledgement is stale when the stream is not ON, and when no report of the window has its
number (R141). -/
theorem takeAck_stale {q : Byte} {s : State}
    (h : s.stream.state ≠ .on ∨ ∀ r ∈ s.stream.window, r.sequence ≠ q) :
    takeAck q s = staleAck s := by
  cases hstate : s.stream.state with
  | off => simp [takeAck, hstate]
  | stalled => simp [takeAck, hstate]
  | on =>
    have hnone := splitWindow_none _ (h.resolve_left (absurd hstate))
    simp [takeAck, hstate, hnone]

/-- An ACK handed over that is not one byte has no number, and is stale (R141). -/
theorem exec_ack_wrongLength {q : Byte} {p : Payload} {acks : List Payload} {s : State}
    (hup : s.pins.resetActive = false) (hacks : s.handed.acks = p :: acks) (hp : p.length ≠ 1) :
    exec (.ack q) s = finish (staleAck (s.withHanded { s.handed with acks := acks })) := by
  simp [exec, execAck, whileUp, hup, hacks, hp]

/-- An ACK handed over that is one byte is taken by that number (R140). -/
theorem exec_ack_number {q : Byte} {acks : List Payload} {s : State}
    (hup : s.pins.resetActive = false) (hacks : s.handed.acks = [q] :: acks) :
    exec (.ack q) s = finish (takeAck q (s.withHanded { s.handed with acks := acks })) := by
  simp [exec, execAck, whileUp, hup, hacks]

/-- A stale acknowledgement leaves nothing to a later step (R141: it tells no one). -/
theorem staleAck_quiet {s : State} (h : Quiet s) : Quiet (staleAck s) :=
  ⟨h.offered, h.removals, h.told, h.endings⟩

/-- Taking an ACK from those handed over leaves nothing to a later step. -/
theorem withHanded_quiet {s : State} (x : Handovers) (h : Quiet s) : Quiet (s.withHanded x) :=
  ⟨h.offered, h.removals, h.told, h.endings⟩

/-- Settles O41, by the two ways an ACK can be stale: it has no number, or none that the stream
awaits. -/
theorem staleAckRaisesTheCounterAlone : Obligations.StaleAckRaisesTheCounterAlone := by
  intro q p acks s hup hacks hstale
  have hexec : exec (.ack q) s
      = finish (staleAck (s.withHanded { s.handed with acks := acks })) := by
    rcases hstale with hp | ⟨rfl, hstale⟩
    · exact exec_ack_wrongLength hup hacks hp
    · exact (exec_ack_number hup hacks).trans (congrArg finish (takeAck_stale hstale))
  refine ⟨satInc s.stream.stale, satInc_toNat _, hexec, fun hquiet => ?_⟩
  exact hexec.trans
    (congrArg Host.Outcome.next (settle_quiet (staleAck_quiet (withHanded_quiet _ hquiet))))

end Sys2Proof.Machine
end

section
/-! The written examples of the frames and records, and the codes the part sends (sections 10.2 and
11.2 to 11.6). Each example is closed, so the model's layout functions compute to the bytes; what is
said of every operand goes through a lemma on the layout. -/

namespace Sys2Proof.Machine

/-! ## The check and the frame (R185, R188) -/

/-- R185's own check value. -/
theorem crcOf_nine_digits :
    crcOf [0x31, 0x32, 0x33, 0x34, 0x35, 0x36, 0x37, 0x38, 0x39] = 0x29B1 := by decide +kernel

/-- The HELLO frame that section 10.2 writes out. -/
theorem frameBytes_hello :
    frameBytes ⟨0x01, kindHello, []⟩ = [0xC3, 0x00, 0x01, 0x01, 0xEF, 0x8C] := by decide +kernel

/-! ## Layouts -/

/-- Reading a SCHEDULE depends on its 22 bytes alone: neither the pins nor how far the step goes is
in the record. -/
theorem commandOf_schedule {p : Payload} (hlen : p.length = 22) (gatePin inPin : Level)
    (go : Extent) :
    commandOf gatePin inPin go kindSchedule p = some (.schedule (readSchedule p) go) := by
  have hkind : lengthOf kindSchedule = some 22 := by decide
  rw [commandOf, if_pos (hkind.trans (congrArg some hlen.symm))]
  rfl

/-- A STAMPS report is its number, its entry count and its entries one after another (R198). -/
theorem reportPayload_eq_flatten (q : Byte) (l : List StampContent) :
    reportPayload q l = [q, BitVec.ofNat 8 l.length] ++ (l.map stampBytes).flatten := by
  rw [reportPayload, List.flatMap_def]

/-- A READY notice at tick 0 is zero but for the detail, the code of its cause (R199). -/
theorem noticeBytes_ready (cause : ResetCause) :
    noticeBytes ⟨.ready cause, 0, none, none⟩
      = [0x00, 0, 0, 0, 0, 0, 0, 0x00, 0x00, cause.code, 0, 0, 0, 0, 0, 0, 0, 0] := by
  simp [noticeBytes, NoticeBody.code, NoticeBody.subject, NoticeBody.detail, NoticeBody.ordinal,
    be, optBytes]

/-- The codes of the causes are those of section 11.3. -/
theorem resetCause_code_of_mem {cause : ResetCause} {b : Byte}
    (h : (cause, b) ∈ [(ResetCause.power, (0 : Byte)), (.pin, 1), (.command, 2)]) :
    cause.code = b := by
  simp only [List.mem_cons, Prod.mk.injEq, List.not_mem_nil, or_false] at h
  obtain ⟨rfl, rfl⟩ | ⟨rfl, rfl⟩ | ⟨rfl, rfl⟩ := h <;> rfl

/-- Settles O3, example by example and code by code, in the order of the statement. -/
theorem theManualsExamplesAreWrittenAsGiven :
    Obligations.TheManualsExamplesAreWrittenAsGiven := by
  refine ⟨crcOf_nine_digits, frameBytes_hello, ?schedule, ?period, ?recordOfTrigger, ?recordOfMark,
    ?lineWithPulse, ?lineWithoutPulse, ?edge, ?width, ?sample, ?report, reportPayload_eq_flatten,
    ?ready, ?timeEnd, ?streamStalled, ?fired, ?ended, ?truncated, ?triggerMiss, ?linkError,
    ?codes⟩
  case schedule => exact commandOf_schedule rfl .low .low
  case ready =>
    intro cause b hcause
    rw [← resetCause_code_of_mem hcause]
    exact noticeBytes_ready cause
  case period | recordOfTrigger | recordOfMark | lineWithPulse | lineWithoutPulse => rfl
  case edge | width | sample | report => rfl
  case timeEnd | streamStalled | fired | ended | truncated | triggerMiss | linkError => rfl
  case codes =>
    refine ⟨?status, ?run, ?tickSource, ?yesNo, ?level, ?lineMode, fun n w i => ?action,
      fun n => ?reportPolicy, ?latePolicy, fun k => ?origin, ?firing, ?ending, ?channelMode,
      ?edgeSelection, fun k v p t => ?channelState, fun x h m => ?converter, ?zone,
      fun d n l => ?triggerState, ?stream, ?miss, ?linkErrorKind⟩
    case status | run | tickSource | yesNo | level | lineMode | action => rfl
    case reportPolicy | latePolicy | origin | firing | ending => rfl
    case channelMode | edgeSelection | channelState | converter | zone => rfl
    case triggerState | stream | miss | linkErrorKind => rfl

end Sys2Proof.Machine
end

section
/-! One step, and the reset state: its values, block by block, and the laws that every step keeps. -/

namespace Sys2Proof.Machine

/-- Settles O1: a step looks at the front of the queue and nothing else. -/
theorem stepRunsTheFrontCommand : Obligations.StepRunsTheFrontCommand := by
  intro c rest s h
  simp [step, h]

/-! ## Reset values -/

/-- Settles O5, table by table; the families of places are constant at reset. -/
theorem resetHoldsTheTablesValues : Obligations.ResetHoldsTheTablesValues := by
  refine ⟨rfl, rfl, ?gens, ?lines, ?channels, rfl, rfl, rfl, ?inputs, ?slots, rfl, rfl, ?channelLoss,
    ?inputLoss, rfl, rfl, rfl, rfl, rfl, rfl, ?replySlots, rfl, rfl, rfl, rfl, rfl, rfl, rfl, rfl,
    rfl, rfl, rfl, rfl, rfl, rfl, ⟨rfl, rfl, rfl, rfl⟩⟩
  case gens => simp [State.reset, ActionTable.reset]
  case lines => simp [State.reset, OutputLine.reset]
  case channels => simp [State.reset, Channel.reset]
  case inputs => simp [State.reset, Sampler.reset, AnalogInput.reset]
  case slots => simp [State.reset, TriggerTable.reset]
  case channelLoss | inputLoss => simp [State.reset, StampQueue.reset]
  case replySlots => simp [State.reset, CommandBlock.reset]

/-! ## The laws at reset -/

/-- No trigger slot is defined at reset (R119). -/
theorem reset_slot_empty (k : Fin 16) : State.reset.triggers.slots[k].use = .empty := by
  simp [State.reset, TriggerTable.reset]

/-- Every reply slot is FREE at reset (R178). -/
theorem reset_slot_free (i : Fin 16) : State.reset.cmd.slots[i] = .free := by
  simp [State.reset, CommandBlock.reset]

theorem reset_templatesValid : TemplatesValid State.reset where
  records r h := by cases h
  slots k d st n l h := by rw [reset_slot_empty] at h; cases h
  claim e r h := by cases h

theorem reset_tableInOrder : TableInOrder State.reset where
  span := ⟨Nat.zero_le _, fun h => absurd rfl h⟩
  templates := reset_templatesValid
  order := .nil
  slots := .nil
  standings := .nil
  admitted r h := by cases h
  gens r h := by cases h
  nonzero := by simp [State.reset, ActionTable.reset]
  due r h := by cases h
  future h := absurd rfl h

theorem reset_pulsesLegal : PulsesLegal State.reset where
  templates := reset_templatesValid
  pulses n p h := by simp [State.reset, OutputLine.reset] at h

/-- A channel at its reset values is legal (R86). -/
theorem channelReset_legal : Channel.reset.Legal := by
  constructor <;> simp +decide [Channel.reset]

theorem reset_channelsLegal : ChannelsLegal State.reset := by
  intro n
  have h : State.reset.channels[n] = Channel.reset := by simp [State.reset]
  exact h ▸ channelReset_legal

theorem reset_samplerLegal : SamplerLegal State.reset where
  acquisition := by decide
  recovering h := by cases h
  windows := by simp [State.reset, Sampler.reset, AnalogInput.reset]

theorem reset_streamLegal : StreamLegal State.reset where
  capacity := Nat.zero_le _
  entries := ⟨[], by simp, rfl⟩
  window := Nat.zero_le _
  numbered := trivial
  nonzero := ⟨by decide, fun r h => by cases h⟩
  sizes r h := by cases h
  on _ := ⟨rfl, rfl⟩
  timer _ := rfl
  batch := by decide
  hold := by decide
  interval := by decide
  retry := by decide

theorem reset_slotsLegal : SlotsLegal State.reset where
  capacity := by decide
  held := .nil
  reserved i := by rw [reset_slot_free]; simp [heldSlots, State.reset, CommandBlock.reset]
  queued := .nil
  filled i := by rw [reset_slot_free]; simp [State.reset, CommandBlock.reset]
  sending i r := by rw [reset_slot_free]; simp [State.reset, Transmitter.reset]
  tags := ⟨.nil, by simp [usedTags, State.reset, CommandBlock.reset]⟩
  pending h := by cases h
  clearing h := by cases h
  reading made h := by cases h
  replying r h := by cases h
  told h := by cases h
  idleReplies h := by cases h
  idleNotices h := by cases h

theorem reset_triggersLegal : TriggersLegal State.reset where
  table := reset_tableInOrder
  limit k d st n l h := by rw [reset_slot_empty] at h; cases h
  nodup k d st n l h := by rw [reset_slot_empty] at h; cases h
  live k d st n l h := by rw [reset_slot_empty] at h; cases h
  shots k d st n l h := by rw [reset_slot_empty] at h; cases h
  request e r h := by cases h

theorem reset_receiverLegal : ReceiverLegal State.reset where
  length := by decide
  gap := ⟨fun _ => rfl, fun _ => rfl⟩
  early _ := rfl
  body h := by cases h
  whole h := by simp [State.reset, Receiver.reset] at h
  check h := absurd rfl h

/-- Settles O6, law by law: every list is empty at reset and every place of a family is at its reset
value. -/
theorem theLawsHoldAtReset : Obligations.TheLawsHoldAtReset :=
  ⟨reset_tableInOrder, reset_pulsesLegal, reset_channelsLegal, reset_samplerLegal,
    reset_streamLegal, reset_slotsLegal, reset_triggersLegal, ⟨fun a h => by cases h⟩,
    reset_receiverLegal, fun h => by cases h⟩

end Sys2Proof.Machine
end

section
/-! What one step can do: the claims of the interpreter, the events that the RESET pin shuts out, and
the frames of single fields, each said once for every command and event. -/

namespace Sys2Proof.Machine

/-! ## The interpreter (R164) -/

/-- What a step of a host command can be: one that does not take place; the filling of a reply already
made; BAD_LENGTH; or the command's rule. -/
theorem interpretWhen_next {ready : State → Bool} {k : Byte} {p : Payload}
    {rule : QueuedCommand → State → State} {go : Extent} {s t : State}
    (h : interpretWhen ready k p rule go s = .next t) :
    t = s ∨ s.pins.resetActive = false ∧ interpreterBusy s = false
      ∧ ∃ c rest, s.cmd.queue = c :: rest ∧ c.kind = k
        ∧ ((∃ r, s.cmd.progress = .replying r) ∧ t = settle (fillMade s)
          ∨ (∀ r, s.cmd.progress ≠ .replying r)
            ∧ (t = settle (goOn go (answer c .badLength [] s))
              ∨ c.payload = p ∧ ready s = true ∧ t = settle (goOn go (rule c s)))) := by
  simp only [interpretWhen, whileUp, noStep, finish] at h
  split at h
  · exact .inl (by simpa using h.symm)
  · rename_i hup
    split at h
    · exact .inl (by simpa using h.symm)
    · rename_i hbusy
      split at h
      · exact .inl (by simpa using h.symm)
      · rename_i c rest hq
        split at h
        · exact .inl (by simpa using h.symm)
        · rename_i hk
          split at h
          · exact .inl (by simpa using h.symm)
          · rename_i hp
            have runs : ((∃ r, s.cmd.progress = .replying r) ∧ t = settle (fillMade s)
                ∨ (∀ r, s.cmd.progress ≠ .replying r)
                  ∧ (t = settle (goOn go (answer c .badLength [] s))
                    ∨ c.payload = p ∧ ready s = true ∧ t = settle (goOn go (rule c s)))) ∨ t = s := by
              split at h
              · rename_i r hr
                exact .inl (.inl ⟨⟨r, hr⟩, by simpa using h.symm⟩)
              all_goals
                rename_i hr
                split at h
                · exact .inl (.inr ⟨by simp [hr], .inl (by simpa using h.symm)⟩)
                · rename_i hlen
                  split at h
                  · rename_i hready
                    refine .inl (.inr ⟨by simp [hr], .inr ⟨?_, hready, by simpa using h.symm⟩⟩)
                    exact not_not.1 fun e => hp ⟨not_not.1 hlen, e⟩
                  · exact .inr (by simpa using h.symm)
            rcases runs with runs | rfl
            · exact .inr ⟨by simpa using hup, by simpa using hbusy, c, rest, hq, not_not.1 hk, runs⟩
            · exact .inl rfl

/-! ## The rules of the host commands

Each is the rule that the command's `exec…` hands to the interpreter; DRIVE's and RELEASE's are
`driveRule` and `releaseRule`. -/

/-- CLOCK (R7). -/
def clockRule (source prescaler : Byte) (c : QueuedCommand) (s : State) : State :=
  match readSource source, readPrescaler prescaler with
  | some src, some p =>
      if s.time.run ≠ .stopped then answer c .state [] s
      else
        answer c .ok [] ((s.withTime { s.time with source := src, prescaler := p, count := 0 }).withChannels
          (mapAll Channel.atClock s.channels))
  | _, _ => answer c .badField [] s

/-- SET_TIME (R8, R56). -/
def setTimeRule (value : BitVec 48) (c : QueuedCommand) (s : State) : State :=
  if value.toNat = Config.maxTime then answer c .badField [] s
  else if s.time.run ≠ .stopped then answer c .state [] s
  else
    answer c .ok [] ((s.withTime { s.time with value := value.toNat }).withLines
      (mapAll (OutputLine.atNewValue value.toNat) s.lines))

/-- The run state that START enters with GATE at a level (R9). -/
def startedRun (gatePin : Level) (s : State) : RunState :=
  if gateOpen (readGate gatePin s) then .running else .held

/-- The state of a START that passes its checks, before the late walk (R9). -/
def started (gatePin : Level) (s : State) : State :=
  (readGate gatePin s).withTime { s.time with run := startedRun gatePin s }

/-- START (R9, R10, R37). -/
def startRule (gatePin : Level) (c : QueuedCommand) (s : State) : State :=
  if s.time.run ≠ .stopped then answer c .state [] s
  else if Config.maxTime ≤ s.time.value then answer c .range [] s
  else answer c .ok [(startedRun gatePin s).code] (lateWalk (started gatePin s))

/-- STOP (R11). -/
def stopRule (c : QueuedCommand) (s : State) : State :=
  answer c .ok [] (s.withTime { s.time with run := .stopped })

/-- The state of a GATE with its settings replaced, before the run state is re-evaluated (R6). -/
def gateSet (gating : Bool) (polarity gatePin : Level) (s : State) : State :=
  (readGate gatePin s).withTime { s.time with gating := gating, polarity := polarity }

/-- GATE (R6). -/
def gateRule (gating polarity : Byte) (gatePin : Level) (c : QueuedCommand) (s : State) : State :=
  match readYesNo gating, readLevel polarity with
  | some g, some p =>
      let u := gateSet g p gatePin s
      answer c .ok [(regate u).code] (u.withTime { u.time with run := regate u })
  | _, _ => answer c .badField [] s

/-- SCHEDULE (R23 to R27). -/
def scheduleRule (f : ScheduleFields) (c : QueuedCommand) (s : State) : State :=
  match readBody f.action, readDueMode f.dueMode with
  | some body, some relative =>
      let a := plainAdmission body (dueTime relative f.dueValue s) .host s
      answer c a.1.status a.1.fields a.2
  | _, _ => answer c .badField [] s

/-- CANCEL (R39). -/
def cancelRule (gen slot : Byte) (c : QueuedCommand) (s : State) : State :=
  match readHandle gen slot with
  | none => answer c .badField [] s
  | some h =>
      match findRecord h s with
      | none => answer c .noSuch [] s
      | some r => answer c .ok [] (removeRecord r .cancelled s.time.value s)

/-- The release that CANCEL_LINE may hand to its line (R61). -/
def releaseLine (release : Bool) (n : Fin 8) (s : State) : State :=
  if release then setLine n s.lines[n].release s else s

/-- CANCEL_LINE (R40, R61). -/
def cancelLineRule (line release : Byte) (c : QueuedCommand) (s : State) : State :=
  match readIndex 8 line, readYesNo release with
  | some n, some rel =>
      answer c .ok (be 1 (recordsOnLine n s).length)
        (releaseLine rel n (removeRecords .cancelled s.time.value (recordsOnLine n s) s))
  | _, _ => answer c .badField [] s

/-- RESET (R172, R173). -/
def resetRule (option : Byte) (c : QueuedCommand) (s : State) : State :=
  match readResetOption option with
  | none => answer c .badField [] s
  | some o => beginReset c o s

/-- AWAIT (R166). -/
def awaitRule (gen slot : Byte) (timeout : BitVec 16) (c : QueuedCommand) (s : State) : State :=
  match readHandle gen slot with
  | none => answer c .badField [] s
  | some h =>
      if (findRecord h s).isNone then answer c .noSuch [] s
      else if Config.awaitCapacity ≤ s.cmd.awaits.length then answer c .awaitFull [] s
      else placeAwait c h timeout s

/-- LINE (R57, R58). -/
def lineRule (line mode idle : Byte) (c : QueuedCommand) (s : State) : State :=
  match readIndex 8 line, readLineMode mode, readLevel idle with
  | some n, some m, some i =>
      if s.lines[n].pulse.isSome ∧ i ≠ s.lines[n].idle then answer c .state [] s
      else
        let l := s.lines[n].configure m i
        answer c .ok [l.mode.code, levelCode l.idle, levelCode l.level] (setLine n l s)
  | _, _, _ => answer c .badField [] s

/-- CHANNEL (R81, R82). -/
def channelRule (f : ChannelFields) (pin : Level) (c : QueuedCommand) (s : State) : State :=
  match readChannel f with
  | none => answer c .badField [] s
  | some (n, cfg) =>
      if s.channels[n].run ≠ .off then answer c .state [] s
      else
        let run := enteredRun cfg (readInput n pin s).pins.inputs[n]
        answer c .ok [run.code] (setChannel n { s.channels[n] with
          config := cfg, run := run, edgeCount := 0, events := 0 } (readInput n pin s))

/-- A channel that CHANNEL_OFF has taken to OFF (R83). -/
def Channel.switchedOff (ch : Channel) : Channel :=
  { ch with run := .off, edgeCount := 0, sampling := ch.sampling.atOff }

/-- CHANNEL_OFF (R83). -/
def channelOffRule (channel : Byte) (c : QueuedCommand) (s : State) : State :=
  match readIndex 8 channel with
  | none => answer c .badField [] s
  | some n =>
      answer c .ok (be 4 s.channels[n].switchedOff.events.toNat)
        (setChannel n s.channels[n].switchedOff s)

/-- CHANNEL_STATUS (R84). -/
def channelStatusRule (channel : Byte) (c : QueuedCommand) (s : State) : State :=
  match readIndex 8 channel with
  | none => answer c .badField [] s
  | some n => answer c .ok (channelStatusFields n s) s

/-- The sampler with SAMPLER's acquisition time set and its enable taken (R95 to R97). -/
def switchSampler (on : Bool) (acquisition : Nat) (s : State) : State :=
  let u := s.withSampler { s.sampler with acquisition := acquisition }
  if on then samplerOn u else samplerOff u

/-- SAMPLER (R95 to R97). -/
def samplerRule (enable acquisition : Byte) (c : QueuedCommand) (s : State) : State :=
  match readYesNo enable, readRange 2 255 acquisition.toNat with
  | some on, some t =>
      if t ≠ s.sampler.acquisition ∧ s.sampler.conv.takenUp then answer c .state [] s
      else answer c .ok (samplerFields (switchSampler on t s)) (switchSampler on t s)
  | _, _ => answer c .badField [] s

/-- WINDOW (R98). -/
def windowRule (input : Byte) (low high : BitVec 16) (queue : Byte) (c : QueuedCommand)
    (s : State) : State :=
  match readWindow input low high queue with
  | none => answer c .badField [] s
  | some (i, lo, hi, q) =>
      let x := { s.sampler.inputs[i] with low := lo, high := hi, queue := q, zone := none }
      answer c .ok (windowFields x) (setInput i x s)

/-- TRIGGER (R114). -/
def triggerRule (f : TriggerFields) (c : QueuedCommand) (s : State) : State :=
  match readTriggerDef f with
  | none => answer c .badField [] s
  | some (k, d) =>
      if s.triggers.slots[k].use ≠ .empty then answer c .state [] s
      else
        let u := SlotUse.defined d .armed d.shots []
        answer c .ok (armFields u) (setTriggerSlot k ⟨u, 0⟩ s)

/-- TRIGGER_ARM (R115). -/
def triggerArmRule (slot target : Byte) (c : QueuedCommand) (s : State) : State :=
  match readIndex 16 slot, readTarget target with
  | some k, some tgt =>
      match s.triggers.slots[k].use with
      | .empty => answer c .noSuch [] s
      | .defined d st left l =>
          let u := rearm tgt d st left l
          answer c .ok (armFields u) (setTriggerSlot k { s.triggers.slots[k] with use := u } s)
  | _, _ => answer c .badField [] s

/-- TRIGGER_CLEAR (R116). -/
def triggerClearRule (slot disposal : Byte) (c : QueuedCommand) (s : State) : State :=
  match readIndex 16 slot, readYesNo disposal with
  | some k, some cancel =>
      match s.triggers.slots[k].use with
      | .empty => answer c .noSuch [] s
      | .defined _ _ _ l =>
          let u := setTriggerSlot k { s.triggers.slots[k] with use := .empty } s
          if cancel ∧ l ≠ [] then setClaim (some (.clearing l l.length)) u
          else answer c .ok (be 1 l.length) u
  | _, _ => answer c .badField [] s

/-- TRIGGER_STATUS (R117). -/
def triggerStatusRule (slot : Byte) (c : QueuedCommand) (s : State) : State :=
  match readIndex 16 slot with
  | none => answer c .badField [] s
  | some k => answer c .ok (triggerStatusFields s.triggers.slots[k]) s

/-- The stream with STREAM's configuration set and its enable taken (R127). -/
def switchStream (on : Bool) (f : StreamFields) (s : State) : State :=
  enableStream on (s.withStream (s.stream.configured f))

/-- STREAM (R127). -/
def streamRule (f : StreamFields) (c : QueuedCommand) (s : State) : State :=
  match readYesNo f.enable with
  | none => answer c .badField [] s
  | some on =>
      if !streamInRange f then answer c .badField [] s
      else if s.stream.state ≠ .off ∧ !sameConfig f s.stream then answer c .state [] s
      else answer c .ok (streamFields (switchStream on f s)) (switchStream on f s)

/-- READ (R130). -/
def readRule (n : Byte) (c : QueuedCommand) (s : State) : State :=
  match readRange 1 8 n.toNat with
  | none => answer c .badField [] s
  | some k =>
      if s.stream.state ≠ .off then answer c .state [] s
      else answer c .ok (readFields k s) s

/-- The rule of a host command. -/
def hostRule : Instr → QueuedCommand → State → State
  | .hello _ => fun c s => answer c .ok (helloFields s) s
  | .status go => readOn go
  | .reset option _ => resetRule option
  | .clock source prescaler _ => clockRule source prescaler
  | .setTime value _ => setTimeRule value
  | .start gatePin _ => startRule gatePin
  | .stop _ => stopRule
  | .gate gating polarity gatePin _ => gateRule gating polarity gatePin
  | .getTime _ => fun c s => answer c .ok (timeFields s) s
  | .schedule f _ => scheduleRule f
  | .cancel gen slot _ => cancelRule gen slot
  | .cancelLine line release _ => cancelLineRule line release
  | .listActions position _ => fun c s => answer c .ok (listFields position s) s
  | .await gen slot timeout _ => awaitRule gen slot timeout
  | .line line mode idle _ => lineRule line mode idle
  | .drive line level _ => driveRule line level
  | .lineStatus _ => fun c s => answer c .ok (lineStatusFields s) s
  | .channel f pin _ => channelRule f pin
  | .channelOff channel _ => channelOffRule channel
  | .channelStatus channel _ => channelStatusRule channel
  | .sampler enable acquisition _ => samplerRule enable acquisition
  | .window input low high queue _ => windowRule input low high queue
  | .trigger f _ => triggerRule f
  | .triggerArm slot target _ => triggerArmRule slot target
  | .triggerClear slot disposal _ => triggerClearRule slot disposal
  | .triggerStatus slot _ => triggerStatusRule slot
  | .stream f _ => streamRule f
  | .read n _ => readRule n
  | .release n _ => releaseRule n
  | .ack _ | .tickClockPeriod _ _ | .channelSample _ _ | .stampOffer _ | .triggerSourceEvent _
  | .triggerAdmissionRequest | .replacementAdmission | .triggerCancelRequest _
  | .endOfAcquisition _ | .endOfConversion | .recoveryEnd | .holdTimeReached | .retransmitExpiry
  | .frameReceived _ | .lengthError _ | .gapExpiry | .endOfTransmission | .awaitTimeout _
  | .resetApplies | .powerOn _ _ | .resetPin | .resetPinRelease _ _ | .postResetIdleEnd
  | .byteTaken _ | .sourcePeriod => fun _ s => s

/-- Whether the claim of a host command can be taken: SET_TIME waits for samples (R68), a command of
the Trigger Table for its claim (R103). -/
def hostReady : Instr → State → Bool
  | .setTime value _ => fun s =>
      decide (value.toNat = Config.maxTime ∨ s.time.run ≠ .stopped) || !sampleHoldsValue s
  | .trigger _ _ | .triggerArm _ _ _ | .triggerClear _ _ _ | .triggerStatus _ _ => fun s =>
      s.triggers.claim.isNone
  | _ => fun _ => true

/-- Every step of a host command is the interpreter's, with the command's rule. -/
theorem exec_host {i : Instr} {k : Byte} {p : Payload} {go : Extent} (hf : frameOf i = some (k, p))
    (hg : extentOf i = some go) (s : State) :
    exec i s = interpretWhen (hostReady i) k p (hostRule i) go s := by
  cases i <;> simp only [frameOf, extentOf, reduceCtorEq, Option.some.injEq, Prod.mk.injEq] at hf hg
  all_goals
    obtain ⟨rfl, rfl⟩ := hf
    subst hg
    rfl

/-- A command of a kind that the command queue takes says how far its step goes. -/
theorem extentOf_host {i : Instr} {k : Byte} {p : Payload} (hf : frameOf i = some (k, p))
    (hk : k ≠ kindAck) : ∃ go, extentOf i = some go := by
  cases i
  case ack =>
    simp only [frameOf, Option.some.injEq, Prod.mk.injEq] at hf
    exact absurd hf.1.symm hk
  all_goals simp_all [frameOf, extentOf]

end Sys2Proof.Machine
end

section
/-! What one step can do: a host command's claims, an event's claims, a device reset, or the passing of
time, each before the claims that end the step. -/

namespace Sys2Proof.Machine

/-! ## Events -/

/-- The device resets, which the RESET pin does not shut out (R176). -/
def isDeviceReset : Instr → Bool
  | .powerOn _ _ | .resetPin | .resetPinRelease _ _ => true
  | _ => false

/-- What an event's claims leave of a state in which it takes place, before those that end the step;
none where it does not take place. -/
def eventOf (i : Instr) (s : State) : Option State :=
  match i with
  | .ack q =>
      match s.handed.acks with
      | [] => none
      | p :: rest =>
          if p.length ≠ 1 then some (staleAck (s.withHanded { s.handed with acks := rest }))
          else if p ≠ [q] then none
          else some (takeAck q (s.withHanded { s.handed with acks := rest }))
  | .tickClockPeriod pin taken =>
      if !periodEnds s || samplesDue s then none
      else some (takePeriod taken (readGate pin
        ((s.withChannels (mapAll Channel.atPeriod s.channels)).withTime { s.time with count := 0 })))
  | .channelSample n pin =>
      if s.channels[n].run = .off then none
      else
        (s.channels[n].sampling.afterSample (periodEnds s)).map fun place =>
          takeSample n (setChannel n { s.channels[n] with sampling := place } (readInput n pin s))
  | .stampOffer b =>
      (oldestOffer b s.handed.offers).map fun o =>
        let u := s.withHanded { s.handed with offers := s.handed.offers.erase o }
        let v := u.withStamps (takeOffer o u.now u.stamps)
        if u.stamps.entries.length < Config.stampCapacity then tellIfEligible v else v
  | .triggerSourceEvent b =>
      if s.triggers.claim.isSome then none
      else (oldestEvent b s.handed.events).map fun e => takeEvent e s
  | .triggerAdmissionRequest =>
      match s.triggers.claim with
      | some (.event e r) =>
          match r.replaces with
          | some _ => none
          | none =>
              let a := plainAdmission r.template r.due (.trigger r.slot) s
              some (continueVisit e r.slot (takeAnswer r a.1 a.2))
      | some (.clearing _ _) | none => none
  | .replacementAdmission =>
      match s.triggers.claim with
      | some (.event e r) =>
          match r.replaces with
          | none => none
          | some old =>
              let a := replaceAdmission old r.template r.due (.trigger r.slot) s
              some (continueVisit e r.slot (takeAnswer r a.1 a.2))
      | some (.clearing _ _) | none => none
  | .triggerCancelRequest go =>
      match s.triggers.claim with
      | some (.clearing (h :: rest) count) =>
          if rest.isEmpty then some (goOn go (endClear count (setClaim none (cancelHandle h s))))
          else some (setClaim (some (.clearing rest count)) (cancelHandle h s))
      | some (.clearing [] _) | some (.event _ _) | none => none
  | .endOfAcquisition level =>
      match s.sampler.conv with
      | .acquiring ctx endAt =>
          let u := readAnalog ctx.input level (reach endAt s)
          some (u.withSampler { u.sampler with
            conv := .converting ctx u.pins.analog[ctx.input] (u.now + Config.conversionMicros) })
      | .off | .idle | .converting _ _ _ | .recovering => none
  | .endOfConversion =>
      match s.sampler.conv with
      | .converting ctx held endAt =>
          let u := reach endAt s
          some (takeResult ctx held (u.withSampler { u.sampler with conv := .idle }))
      | .off | .idle | .acquiring _ _ | .recovering => none
  | .recoveryEnd =>
      s.sampler.recoveryEnd.map fun m =>
        let u := reach m s
        match u.sampler.conv with
        | .recovering => u.withSampler { u.sampler with conv := .idle }
        | .off | .idle | .acquiring _ _ | .converting _ _ _ => u
  | .holdTimeReached =>
      match waitingEntries s with
      | [] => none
      | e :: _ =>
          if s.stream.state = .on ∧ s.stream.window.length < Config.windowCapacity then
            some (tellIfEligible (reach (e.since + s.stream.hold * Config.microsPerMilli) s))
          else none
  | .retransmitExpiry =>
      s.stream.timer.map fun m =>
        let u := reach m s
        if u.stream.retryCount < u.stream.retryLimit then markWindow u
        else offerNotice .streamStalled u.time.value none (revertStream .stalled u)
  | .frameReceived c => if s.rx.state = .crcLo ∧ s.rx.hears c then some (takeChar c s) else none
  | .lengthError c =>
      if s.rx.state = .len ∧ s.rx.hears c ∧ Config.maxPayload < c.data.toNat then some (takeChar c s)
      else none
  | .gapExpiry =>
      match s.rx.gapExpiry with
      | none => none
      | some m => if s.rx.state = .hunt then none else some (linkError .gap (reach m s))
  | .endOfTransmission =>
      match s.tx.state with
      | .sending src _ => some (takeBoundary (tellSent src (idleTx s)))
      | .idle | .postReset => none
  | .awaitTimeout tag =>
      (timedAwait tag s).map fun a =>
        let u := fillSlot a.slot (awaitReply a .timeout []) (reach (a.expiry.getD 0) s)
        u.withCmd { u.cmd with awaits := u.cmd.awaits.erase a }
  | .resetApplies =>
      match s.cmd.resetPending with
      | none => none
      | some option => if drained s then some (softReset option s) else none
  | .postResetIdleEnd =>
      match s.tx.state with
      | .postReset => some (takeBoundary (idleTx s))
      | .idle | .sending _ _ => none
  | .byteTaken c => some (takeChar c s)
  | .sourcePeriod =>
      if periodEnds s || samplesDue s then none
      else some (s.withTime { s.time with count := s.time.count + 1 })
  | .hello _ | .status _ | .reset _ _ | .clock _ _ _ | .setTime _ _ | .start _ _ | .stop _
  | .gate _ _ _ _ | .getTime _ | .schedule _ _ | .cancel _ _ _ | .cancelLine _ _ _ | .listActions _ _
  | .await _ _ _ _ | .line _ _ _ _ | .drive _ _ _ | .lineStatus _ | .channel _ _ _ | .channelOff _ _
  | .channelStatus _ _ | .sampler _ _ _ | .window _ _ _ _ _ | .trigger _ _ | .triggerArm _ _ _
  | .triggerClear _ _ _ | .triggerStatus _ _ | .stream _ _ | .read _ _ | .release _ _ | .powerOn _ _
  | .resetPin | .resetPinRelease _ _ => none

/-- An event takes place with its claims, while the part is up, or not at all. -/
theorem exec_event {i : Instr} (he : extentOf i = none ∨ frameOf i = none)
    (hd : isDeviceReset i = false) (s : State) :
    exec i s = whileUp s fun s => match eventOf i s with | none => noStep s | some u => finish u := by
  have up : ∀ {f g : State → Host.Outcome State Fault Refusal}, f s = g s →
      whileUp s f = whileUp s g := fun h => by simp only [whileUp, h]
  cases i <;> simp only [extentOf, frameOf, isDeviceReset, reduceCtorEq, or_self] at he hd
  all_goals
    simp only [exec, execAck, execTickClockPeriod, execChannelSample, execStampOffer,
      execTriggerSourceEvent, execTriggerAdmissionRequest, execReplacementAdmission,
      execTriggerCancelRequest, execEndOfAcquisition, execEndOfConversion, execRecoveryEnd,
      execHoldTimeReached, execRetransmitExpiry, execFrameReceived, execLengthError, execGapExpiry,
      execEndOfTransmission, execAwaitTimeout, execResetApplies, execPostResetIdleEnd, execByteTaken,
      execSourcePeriod]
    apply up
    simp only [eventOf]
  case tickClockPeriod | frameReceived | lengthError | sourcePeriod => split <;> rfl
  case stampOffer b => cases oldestOffer b s.handed.offers <;> rfl
  case awaitTimeout tag => cases timedAwait tag s <;> rfl
  case recoveryEnd =>
    cases s.sampler.recoveryEnd
    · rfl
    · cases h : s.sampler.conv <;> simp [h]
  case retransmitExpiry =>
    cases s.stream.timer
    · rfl
    · simp only [Option.map_some]; split <;> rfl
  case channelSample n pin =>
    split
    · rfl
    · cases s.channels[n].sampling.afterSample (periodEnds s) <;> rfl
  case triggerSourceEvent b =>
    split
    · rfl
    · cases oldestEvent b s.handed.events <;> rfl
  case ack q =>
    cases s.handed.acks with
    | nil => rfl
    | cons p rest =>
      dsimp only
      split
      · rfl
      · split <;> rfl
  case triggerAdmissionRequest | replacementAdmission =>
    cases s.triggers.claim with
    | none => rfl
    | some claim =>
      cases claim with
      | clearing => rfl
      | event e r => dsimp only; cases r.replaces <;> rfl
  case triggerCancelRequest go =>
    cases s.triggers.claim with
    | none => rfl
    | some claim =>
      cases claim with
      | event => rfl
      | clearing hs n =>
        cases hs
        · rfl
        · dsimp only; split <;> rfl
  case holdTimeReached =>
    cases waitingEntries s
    · rfl
    · dsimp only; split <;> rfl
  case gapExpiry =>
    cases s.rx.gapExpiry
    · rfl
    · dsimp only; split <;> rfl
  case resetApplies =>
    cases s.cmd.resetPending
    · rfl
    · dsimp only; split <;> rfl
  case endOfAcquisition | endOfConversion => cases s.sampler.conv <;> rfl
  case endOfTransmission | postResetIdleEnd => cases s.tx.state <;> rfl

/-! ## The step -/

/-- What a host command can do in one step, before the claims that end it: the filling of a reply
already made; BAD_LENGTH; or the command's rule. -/
inductive HostClaim (i : Instr) (s : State) : State → Prop
  | fills {r : Reply} (made : s.cmd.progress = .replying r) : HostClaim i s (fillMade s)
  | refuses {c : QueuedCommand} {rest : List QueuedCommand} (go : Extent)
    (oldest : s.cmd.queue = c :: rest) (notMade : ∀ r, s.cmd.progress ≠ .replying r) :
    HostClaim i s (goOn go (answer c .badLength [] s))
  | follows {c : QueuedCommand} {rest : List QueuedCommand} (go : Extent)
    (oldest : s.cmd.queue = c :: rest) (notMade : ∀ r, s.cmd.progress ≠ .replying r)
    (frame : frameOf i = some (c.kind, c.payload)) (extent : extentOf i = some go)
    (ready : hostReady i s = true) : HostClaim i s (goOn go (hostRule i c s))

/-- What one command or event can do: nothing; a host command's claim or an event's, with the claims
that end the step; or a device reset. -/
theorem exec_next {i : Instr} {s t : State} (h : exec i s = .next t) :
    t = s ∨ s.pins.resetActive = false ∧ interpreterBusy s = false
        ∧ (∃ u, HostClaim i s u ∧ t = settle u)
      ∨ s.pins.resetActive = false ∧ (∃ u, eventOf i s = some u ∧ t = settle u)
      ∨ isDeviceReset i = true := by
  by_cases hd : isDeviceReset i = true
  · exact .inr (.inr (.inr hd))
  · by_cases he : extentOf i = none ∨ frameOf i = none
    · rw [exec_event he (by simpa using hd), whileUp] at h
      split at h
      · exact .inl (by simpa [noStep] using h.symm)
      · rename_i hup
        cases hu : eventOf i s with
        | none => exact .inl (by simpa [hu, noStep] using h.symm)
        | some u => exact .inr (.inr (.inl ⟨by simpa using hup, u, rfl, by
            simpa [hu, finish] using h.symm⟩))
    · obtain ⟨hg, hf⟩ := not_or.1 he
      obtain ⟨go, hg⟩ := Option.ne_none_iff_exists'.1 hg
      obtain ⟨⟨k, p⟩, hf⟩ := Option.ne_none_iff_exists'.1 hf
      rw [exec_host hf hg] at h
      rcases interpretWhen_next h with rfl | ⟨hup, hbusy, c, rest, hq, rfl, hc⟩
      · exact .inl rfl
      · refine .inr (.inl ⟨hup, hbusy, ?_⟩)
        rcases hc with ⟨⟨r, hr⟩, rfl⟩ | ⟨hr, rfl | ⟨rfl, hready, rfl⟩⟩
        · exact ⟨_, .fills hr, rfl⟩
        · exact ⟨_, .refuses go hq hr, rfl⟩
        · exact ⟨_, .follows go hq hr hf hg hready, rfl⟩

end Sys2Proof.Machine
end

section
/-! Frames: which blocks of the state the claims of each command and event can touch, the end of the
step apart, and that they leave every other block as it was. -/

namespace Sys2Proof.Machine

/-! ## The parts that the rules are made of -/

@[simp] theorem started_keeps (v : Level) (s : State) :
    (started v s).table = s.table ∧ (started v s).lines = s.lines
    ∧ (started v s).channels = s.channels ∧ (started v s).sampler = s.sampler
    ∧ (started v s).triggers = s.triggers ∧ (started v s).stamps = s.stamps
    ∧ (started v s).stream = s.stream ∧ (started v s).notices = s.notices
    ∧ (started v s).cmd = s.cmd ∧ (started v s).rx = s.rx ∧ (started v s).tx = s.tx
    ∧ (started v s).removals = s.removals := by
  simp [started]

@[simp] theorem gateSet_keeps (g : Bool) (p v : Level) (s : State) :
    (gateSet g p v s).table = s.table ∧ (gateSet g p v s).lines = s.lines
    ∧ (gateSet g p v s).channels = s.channels ∧ (gateSet g p v s).sampler = s.sampler
    ∧ (gateSet g p v s).triggers = s.triggers ∧ (gateSet g p v s).stamps = s.stamps
    ∧ (gateSet g p v s).stream = s.stream ∧ (gateSet g p v s).notices = s.notices
    ∧ (gateSet g p v s).cmd = s.cmd ∧ (gateSet g p v s).rx = s.rx ∧ (gateSet g p v s).tx = s.tx
    ∧ (gateSet g p v s).removals = s.removals := by
  simp [gateSet]

@[simp] theorem releaseLine_keeps (r : Bool) (n : Fin 8) (s : State) :
    (releaseLine r n s).time = s.time ∧ (releaseLine r n s).table = s.table
    ∧ (releaseLine r n s).channels = s.channels ∧ (releaseLine r n s).sampler = s.sampler
    ∧ (releaseLine r n s).triggers = s.triggers ∧ (releaseLine r n s).stamps = s.stamps
    ∧ (releaseLine r n s).stream = s.stream ∧ (releaseLine r n s).notices = s.notices
    ∧ (releaseLine r n s).cmd = s.cmd ∧ (releaseLine r n s).rx = s.rx
    ∧ (releaseLine r n s).tx = s.tx ∧ (releaseLine r n s).pins = s.pins
    ∧ (releaseLine r n s).removals = s.removals := by
  cases r <;> simp [releaseLine]

@[simp] theorem switchSampler_keeps (on : Bool) (t : Nat) (s : State) :
    (switchSampler on t s).time = s.time ∧ (switchSampler on t s).table = s.table
    ∧ (switchSampler on t s).lines = s.lines ∧ (switchSampler on t s).channels = s.channels
    ∧ (switchSampler on t s).triggers = s.triggers ∧ (switchSampler on t s).stamps = s.stamps
    ∧ (switchSampler on t s).stream = s.stream ∧ (switchSampler on t s).notices = s.notices
    ∧ (switchSampler on t s).cmd = s.cmd ∧ (switchSampler on t s).rx = s.rx
    ∧ (switchSampler on t s).tx = s.tx ∧ (switchSampler on t s).pins = s.pins
    ∧ (switchSampler on t s).removals = s.removals := by
  cases on <;> simp [switchSampler]

@[simp] theorem switchStream_keeps (on : Bool) (f : StreamFields) (s : State) :
    (switchStream on f s).time = s.time ∧ (switchStream on f s).table = s.table
    ∧ (switchStream on f s).lines = s.lines ∧ (switchStream on f s).channels = s.channels
    ∧ (switchStream on f s).sampler = s.sampler ∧ (switchStream on f s).triggers = s.triggers
    ∧ (switchStream on f s).notices = s.notices ∧ (switchStream on f s).cmd = s.cmd
    ∧ (switchStream on f s).rx = s.rx ∧ (switchStream on f s).pins = s.pins
    ∧ (switchStream on f s).removals = s.removals := by
  simp [switchStream]

/-! ## What each command and event can touch -/

/-- The blocks of the state whose frames are followed here. -/
inductive Block where
  | time | table | lines | channels | sampler | triggers | stamps | stream | rx | pins | removals
deriving DecidableEq

/-- The blocks that the claims of a command or event can touch. -/
def touches : Instr → List Block
  | .clock _ _ _ => [.time, .channels]
  | .setTime _ _ => [.time, .lines]
  | .start _ _ => [.time, .table, .triggers, .pins, .removals]
  | .stop _ => [.time]
  | .gate _ _ _ _ => [.time, .pins]
  | .schedule _ _ => [.table]
  | .cancel _ _ _ | .triggerCancelRequest _ => [.table, .triggers, .removals]
  | .cancelLine _ _ _ => [.table, .lines, .triggers, .removals]
  | .line _ _ _ _ | .drive _ _ _ => [.lines]
  | .channel _ _ _ | .channelSample _ _ => [.channels, .pins]
  | .channelOff _ _ => [.channels]
  | .sampler _ _ _ | .window _ _ _ _ _ | .endOfConversion | .recoveryEnd => [.sampler]
  | .endOfAcquisition _ => [.sampler, .pins]
  | .trigger _ _ | .triggerArm _ _ _ | .triggerClear _ _ _ | .triggerSourceEvent _ => [.triggers]
  | .triggerAdmissionRequest => [.table, .triggers]
  | .replacementAdmission => [.table, .triggers, .removals]
  | .stream _ _ | .ack _ | .retransmitExpiry | .endOfTransmission | .postResetIdleEnd =>
      [.stamps, .stream]
  | .release _ _ | .stampOffer _ => [.stamps]
  | .tickClockPeriod _ _ =>
      [.time, .table, .lines, .channels, .sampler, .triggers, .pins, .removals]
  | .sourcePeriod => [.time]
  | .frameReceived _ | .lengthError _ | .gapExpiry | .byteTaken _ => [.rx]
  | .resetApplies | .powerOn _ _ | .resetPin | .resetPinRelease _ _ =>
      [.time, .table, .lines, .channels, .sampler, .triggers, .stamps, .stream, .rx, .pins, .removals]
  | .hello _ | .status _ | .reset _ _ | .getTime _ | .listActions _ _ | .await _ _ _ _
  | .lineStatus _ | .channelStatus _ _ | .triggerStatus _ _ | .read _ _ | .holdTimeReached
  | .awaitTimeout _ => []

/-- The blocks that are not listed are as they were. -/
structure TouchesOnly (touched : List Block) (s u : State) : Prop where
  time : .time ∉ touched → u.time = s.time
  table : .table ∉ touched → u.table = s.table
  lines : .lines ∉ touched → u.lines = s.lines
  channels : .channels ∉ touched → u.channels = s.channels
  sampler : .sampler ∉ touched → u.sampler = s.sampler
  triggers : .triggers ∉ touched → u.triggers = s.triggers
  stamps : .stamps ∉ touched → u.stamps = s.stamps
  stream : .stream ∉ touched → u.stream = s.stream
  rx : .rx ∉ touched → u.rx = s.rx
  pins : .pins ∉ touched → u.pins = s.pins
  removals : .removals ∉ touched → u.removals = s.removals

/-- A command's rule leaves the blocks that the command does not touch. -/
theorem hostRule_touchesOnly (i : Instr) (c : QueuedCommand) (s : State) :
    TouchesOnly (touches i) s (hostRule i c s) := by
  cases i
  all_goals
    simp only [hostRule,
      clockRule, setTimeRule, startRule, stopRule, gateRule, scheduleRule, cancelRule,
      cancelLineRule, resetRule, awaitRule, lineRule, driveRule, channelRule,
      channelOffRule, channelStatusRule, samplerRule, windowRule, triggerRule,
      triggerArmRule, triggerClearRule, triggerStatusRule, streamRule, readRule, releaseRule]
    repeat' split
  all_goals constructor <;> simp [touches]

/-- An event leaves the blocks that it does not touch. -/
theorem eventOf_touchesOnly {i : Instr} {s u : State} (hu : eventOf i s = some u) :
    TouchesOnly (touches i) s u := by
  cases i
  case resetApplies => constructor <;> simp [touches]
  case stampOffer | recoveryEnd | retransmitExpiry | awaitTimeout =>
    obtain ⟨_, -, rfl⟩ := Option.map_eq_some_iff.1 hu
    dsimp only
    repeat' split
    all_goals constructor <;> simp [touches]
  case channelSample | triggerSourceEvent =>
    simp only [eventOf] at hu
    split at hu
    · cases hu
    · obtain ⟨_, -, rfl⟩ := Option.map_eq_some_iff.1 hu
      constructor <;> simp [touches]
  all_goals
    simp only [eventOf] at hu
    repeat' split at hu
  all_goals cases hu
  all_goals constructor <;> simp [touches]

end Sys2Proof.Machine
end

section
/-! One step and the laws: what a step keeps, from what each rule, event and reset keeps. -/

namespace Sys2Proof.Machine

/-! ## Device resets (R176) -/

/-- The blocks that hold reset values after every device reset. -/
structure BlocksAtReset (t : State) : Prop where
  time : t.time = State.reset.time
  table : t.table = State.reset.table
  lines : t.lines = State.reset.lines
  channels : t.channels = State.reset.channels
  triggers : t.triggers = State.reset.triggers
  stamps : t.stamps = State.reset.stamps
  stream : t.stream = State.reset.stream
  cmd : t.cmd = State.reset.cmd
  rx : t.rx = State.reset.rx
  tx : t.tx = State.reset.tx
  removals : t.removals = []

/-- A device reset without its occasion changes nothing; the pin's release changes the Notice Queue, the
rate and the pins alone; and the others set the blocks' reset values. -/
theorem deviceReset_next {i : Instr} {s t : State} (hd : isDeviceReset i = true)
    (h : exec i s = .next t) :
    t = s
    ∨ s.pins.resetActive = true ∧ t.pins.resetActive = false
      ∧ t = ((s.withNotices (NoticeQueue.resetFor .pin)).withRate t.rate).withPins t.pins
    ∨ BlocksAtReset t ∧ t.sampler = { Sampler.reset with recoveryEnd := t.sampler.recoveryEnd }
      ∧ t.notices.queue.length ≤ 1 := by
  cases i <;> simp only [isDeviceReset, reduceCtorEq] at hd
  case powerOn =>
    cases h
    exact .inr (.inr ⟨by constructor <;> rfl, rfl, Nat.le_refl _⟩)
  case resetPin =>
    cases h
    exact .inr (.inr ⟨by constructor <;> rfl, rfl, Nat.zero_le _⟩)
  case resetPinRelease =>
    simp only [exec, execResetPinRelease, noStep] at h
    split at h <;> cases h
    · exact .inr (.inl ⟨‹_›, rfl, rfl⟩)
    · exact .inl rfl

/-! ## Laws on blocks that the end of a step leaves alone -/

/-- A law that the ends of steps and executions, the making of a reply, the queue of what waits and the
time reference do not bear on. -/
structure Steady (P : State → Prop) : Prop where
  settle : ∀ {u}, P u → P (settle u)
  goOn : ∀ {u} go, P u → P (goOn go u)
  answer : ∀ {u} c st f, P u → P (answer c st f u)
  pending : ∀ {u} l, P u → P (u.withPending l)
  now : ∀ {u} m, P u → P (u.withNow m)

variable {P : State → Prop} {i : Instr} {s t u : State}

/-- A host command keeps a steady law that its rule keeps. -/
theorem Steady.hostClaim (hP : Steady P) (h : HostClaim i s u) (hs : P s)
    (rule : ∀ c, hostReady i s = true → P (hostRule i c s)) : P u := by
  cases h with
  | fills => exact hP.goOn .toReply hs
  | refuses go => exact hP.goOn go (hP.answer _ _ _ hs)
  | follows go _ _ _ _ hr => exact hP.goOn go (rule _ hr)

/-- Every command and event keeps a steady law that its rule, its event or its reset keeps. -/
theorem Steady.exec (hP : Steady P) (h : exec i s = .next t) (hs : P s)
    (rule : ∀ c, hostReady i s = true → P (hostRule i c s))
    (event : ∀ u, eventOf i s = some u → P u)
    (reset : isDeviceReset i = true → P t) : P t := by
  rcases exec_next h with rfl | ⟨-, -, u, hu, rfl⟩ | ⟨-, u, hu, rfl⟩ | hd
  · exact hs
  · exact hP.settle (hP.hostClaim hu hs rule)
  · exact hP.settle (event u hu)
  · exact reset hd

/-- Every step keeps a steady law that every rule, event and reset keeps. -/
theorem Steady.step (hP : Steady P) (h : step s = .next t) (hs : P s)
    (rule : ∀ i c s, hostReady i s = true → P s → P (hostRule i c s))
    (event : ∀ i s u, P s → eventOf i s = some u → P u)
    (reset : ∀ i s t, isDeviceReset i = true → Machine.exec i s = .next t → P s → P t) : P t := by
  unfold Machine.step at h
  split at h
  · simp only [passTime, finish] at h
    split at h <;> cases h
    · exact hP.now _ hs
    · exact hP.settle (hP.now _ hs)
  · rename_i i rest _
    have hs' := hP.pending rest hs
    exact hP.exec h hs' (fun c hr => rule _ _ _ hr hs') (fun u hu => event _ _ _ hs' hu)
      (fun hd => reset _ _ _ hd h hs')

end Sys2Proof.Machine
end

section
/-! Every step keeps the templates valid (R17, R101): the readers give valid ones, and the operations of
the Action Table and the Trigger Table only hand them on. -/

namespace Sys2Proof.Machine

variable {s u : State}

/-! ## What the readers give -/

/-- A repeat that is read has a period (R195). -/
theorem readRepeat_period {p : BitVec 32} {n : BitVec 16} {rep : Repeat}
    (h : readRepeat p n = some rep) : 1 ≤ rep.period := by
  unfold readRepeat at h
  split at h <;> cases h
  rename_i hp
  have : p.toNat ≠ 0 := fun e => hp (BitVec.eq_of_toNat_eq (by simpa using e))
  exact Nat.one_le_iff_ne_zero.2 this

/-- A pulse that is read has a width (R23). -/
theorem readAction_width {f : TemplateFields} {n : Fin 8} {w : Nat}
    (h : readAction f = some (.pulse n w)) : 1 ≤ w := by
  unfold readAction at h
  split at h
  case h_4 =>
    split at h
    · cases h
    · rename_i hw
      obtain ⟨_, -, h⟩ := Option.map_eq_some_iff.1 h
      cases h
      have : f.width.toNat ≠ 0 := fun e => hw (BitVec.eq_of_toNat_eq (by simpa using e))
      exact Nat.one_le_iff_ne_zero.2 this
  all_goals simp at h

/-- The fields of a body that is read, each as its own reader gives it. -/
theorem readBody_eq_some {f : TemplateFields} {b : Template} : readBody f = some b ↔
    readAction f = some b.action ∧ readReport f.report f.n = some b.report
    ∧ readLate f.late = some b.late ∧ readRepeat f.period f.count = b.repeats
    ∧ readLabel f.label = b.label := by
  simp only [readBody]
  cases b
  split
  · simp_all only [Option.some.injEq, Template.mk.injEq]
    tauto
  · rename_i h
    simp only [reduceCtorEq, false_iff]
    rintro ⟨ha, hr, hl, -⟩
    exact h _ _ _ ha hr hl

/-- A body that is read is valid (R17, R101). -/
theorem readBody_valid {f : TemplateFields} {b : Template} (h : readBody f = some b) : b.Valid := by
  obtain ⟨ha, -, -, hp, -⟩ := readBody_eq_some.1 h
  exact ⟨fun n w e => readAction_width (n := n) (ha.trans (congrArg some e)),
    fun rep e => readRepeat_period (hp.trans e)⟩

/-- The template of a definition that is read is valid (R114). -/
theorem readTriggerDef_valid {f : TriggerFields} {k : Fin 16} {d : TriggerDef}
    (h : readTriggerDef f = some (k, d)) : d.template.Valid := by
  unfold readTriggerDef at h
  split at h
  · split at h
    · cases h
    · cases h
      exact readBody_valid ‹_›
  · cases h

/-! ## What hands templates on -/

/-- Templates stay valid where every one stood in the state before, or is valid. -/
theorem TemplatesValid.of_handedOn (h : TemplatesValid s)
    (records : ∀ r ∈ u.table.records, (∃ x ∈ s.table.records, r.body = x.body) ∨ r.body.Valid)
    (slots : ∀ (k : Fin 16) d st n l, u.triggers.slots[k].use = .defined d st n l →
      (∃ st n l, s.triggers.slots[k].use = .defined d st n l) ∨ d.template.Valid)
    (claim : ∀ e r, u.triggers.claim = some (.event e r) →
      s.triggers.claim = some (.event e r) ∨ r.template.Valid) : TemplatesValid u where
  records r hr := by
    rcases records r hr with ⟨x, hx, e⟩ | hv
    · exact e ▸ h.records x hx
    · exact hv
  slots k d st n l hk := by
    rcases slots k d st n l hk with ⟨_, _, _, hs⟩ | hv
    · exact h.slots k d _ _ _ hs
    · exact hv
  claim e r hc := (claim e r hc).elim (h.claim e r) id

/-- The templates of a state stand in its table and its triggers. -/
theorem TemplatesValid.congr (h : TemplatesValid s) (ht : u.table = s.table)
    (hg : u.triggers = s.triggers) : TemplatesValid u :=
  h.of_handedOn (fun r hr => .inl ⟨r, ht ▸ hr, rfl⟩) (fun _ _ _ _ _ hk => .inl ⟨_, _, _, hg ▸ hk⟩)
    (fun _ _ hc => .inl (hg ▸ hc))

theorem templatesValid_steady : Steady TemplatesValid where
  settle h := h.congr (by simp) (by simp)
  goOn _ h := h.congr (by simp) (by simp)
  answer _ _ _ h := h.congr (by simp) (by simp)
  pending _ h := h.congr rfl rfl
  now _ h := h.congr rfl rfl

/-- Dropping a handle leaves a slot's definition. -/
theorem dropInstance_defined {h : Handle} {x : SlotUse} {d : TriggerDef} {st : ArmState} {n : Nat}
    {l : List Handle} (hd : x.dropInstance h = .defined d st n l) :
    ∃ l', x = .defined d st n l' ∧ l = l'.filter (fun y => y ≠ h) := by
  cases x with
  | empty => cases hd
  | defined d' st' n' l' => cases hd; exact ⟨l', rfl, rfl⟩

/-- What a removal leaves of a slot: the record's own handle is gone from its origin's list. -/
theorem removeRecord_defined {r : Record} {e : EndReason} {t : Time} {k : Fin 16} {d : TriggerDef}
    {st : ArmState} {n : Nat} {l : List Handle}
    (h : (removeRecord r e t s).triggers.slots[k].use = .defined d st n l) :
    ∃ l', s.triggers.slots[k].use = .defined d st n l'
      ∧ l = if r.origin = .trigger k then l'.filter (fun y => y ≠ r.handle) else l' := by
  rw [removeRecord_use] at h
  split at h
  · rename_i ho
    simpa [ho] using dropInstance_defined h
  · rename_i ho
    exact ⟨l, h, by simp [ho]⟩

theorem TemplatesValid.removeRecord (h : TemplatesValid s) (r : Record) (e : EndReason) (t : Time) :
    TemplatesValid (removeRecord r e t s) := by
  refine h.of_handedOn (fun x hx => .inl ⟨x, ?_, rfl⟩) (fun k d st n l hk => .inl ?_)
    (fun _ _ hc => .inl (by simpa using hc))
  · exact ((mem_dropHandle ..).1 (by simpa using hx)).1
  · obtain ⟨l', hk, -⟩ := removeRecord_defined hk
    exact ⟨_, _, _, hk⟩

theorem TemplatesValid.removeRecords (h : TemplatesValid s) (e : EndReason) (t : Time)
    (l : List Record) : TemplatesValid (removeRecords e t l s) := by
  induction l generalizing s with
  | nil => exact h
  | cons r l ih => exact ih (h.removeRecord r e t)

/-- A record with a valid body put in place of another. -/
theorem TemplatesValid.putRecord (h : TemplatesValid s) {r : Record} {x : Handle} (hr : r.body.Valid) :
    TemplatesValid (s.withTable { s.table with
      records := insertRecord r (dropHandle x s.table.records) }) := by
  refine h.of_handedOn (fun y hy => ?_) (fun _ _ _ _ _ hk => .inl ⟨_, _, _, hk⟩) (fun _ _ hc => .inl hc)
  rcases (mem_insertRecord ..).1 hy with rfl | hy
  · exact .inr hr
  · exact .inl ⟨y, ((mem_dropHandle ..).1 hy).1, rfl⟩

theorem TemplatesValid.admitInto (h : TemplatesValid s) {b : Template} (hb : b.Valid) (k : Fin 64)
    (due : Time) (late : Bool) (o : Origin) : TemplatesValid (admitInto k b due late o s).2 := by
  refine h.of_handedOn (fun y hy => ?_) (fun _ _ _ _ _ hk => .inl ⟨_, _, _, hk⟩) (fun _ _ hc => .inl hc)
  rcases (mem_insertRecord ..).1 hy with rfl | hy
  · exact .inr hb
  · exact .inl ⟨y, hy, rfl⟩

theorem TemplatesValid.plainAdmission (h : TemplatesValid s) {b : Template} (hb : b.Valid)
    (due : Time) (o : Origin) : TemplatesValid (plainAdmission b due o s).2 := by
  unfold Machine.plainAdmission
  split
  · exact h
  · split
    · exact h
    · split
      · exact h
      · exact h.admitInto hb _ _ _ _

theorem TemplatesValid.replaceAdmission (h : TemplatesValid s) {b : Template} (hb : b.Valid)
    (old : Handle) (due : Time) (o : Origin) : TemplatesValid (replaceAdmission old b due o s).2 := by
  unfold Machine.replaceAdmission
  split
  · exact h.plainAdmission hb due o
  · split
    · exact h
    · split
      · exact h
      · exact (h.removeRecord _ _ _).admitInto hb _ _ _ _

/-! ## Triggers -/

/-- A slot replaced by one whose definition it had or is valid. -/
theorem TemplatesValid.setTriggerSlot (h : TemplatesValid s) {k : Fin 16} {x : TriggerSlot}
    (hx : ∀ d st n l, x.use = .defined d st n l →
      (∃ st n l, s.triggers.slots[k].use = .defined d st n l) ∨ d.template.Valid) :
    TemplatesValid (setTriggerSlot k x s) := by
  refine h.of_handedOn (fun r hr => .inl ⟨r, hr, rfl⟩) (fun j d st n l hj => ?_) (fun _ _ hc => .inl hc)
  by_cases hjk : k = j
  · subst hjk
    exact hx d st n l (by simpa [Machine.setTriggerSlot] using hj)
  · have := Fin.val_ne_of_ne hjk
    exact .inl ⟨st, n, l, by simpa [Machine.setTriggerSlot, this] using hj⟩

theorem TemplatesValid.countMiss (h : TemplatesValid s) (k : Fin 16) : TemplatesValid (countMiss k s) :=
  h.setTriggerSlot fun _ _ _ _ hk => .inl ⟨_, _, _, hk⟩

theorem TemplatesValid.setClaim (h : TemplatesValid s) {c : Option TriggerClaim}
    (hc : ∀ e r, c = some (.event e r) → r.template.Valid) : TemplatesValid (setClaim c s) :=
  h.of_handedOn (fun r hr => .inl ⟨r, hr, rfl⟩) (fun _ _ _ _ _ hk => .inl ⟨_, _, _, hk⟩)
    (fun e r he => .inr (hc e r he))

/-- A visit asks with the template of the slot it waits at (R106, R108). -/
theorem TemplatesValid.visitSlots (h : TemplatesValid s) (e : SourceEvent) (ks : List (Fin 16)) :
    TemplatesValid (visitSlots e ks s) := by
  induction ks generalizing s with
  | nil => exact h.setClaim (by simp)
  | cons k ks ih =>
    unfold Machine.visitSlots
    split
    · rename_i d n l hk
      have asks : ∀ due old, TemplatesValid (Machine.setClaim
          (some (.event e ⟨k, d.template, due, old⟩)) s) := fun due old =>
        h.setClaim fun _ _ he => by cases he; exact h.slots k d _ _ _ hk
      split
      · exact ih h
      · split
        · exact asks _ _
        · split
          · exact ih (h.countMiss k)
          · exact asks _ _
    all_goals exact ih h

theorem TemplatesValid.takeEvent (h : TemplatesValid s) (e : SourceEvent) :
    TemplatesValid (takeEvent e s) := by
  refine TemplatesValid.visitSlots ?_ e _
  exact h.congr rfl rfl

theorem TemplatesValid.takeBlockEvents (h : TemplatesValid s) (bs : List EventBlock) :
    TemplatesValid (takeBlockEvents bs s) := by
  induction bs generalizing s with
  | nil => exact h
  | cons b bs ih =>
    apply ih
    unfold takeBlockEvent
    split
    · exact h
    · split
      · exact h
      · exact h.takeEvent _

/-- An answer taken leaves the slot's definition (R109 to R111). -/
theorem TemplatesValid.takeAnswer (h : TemplatesValid s) (r : AdmissionRequest) (a : AdmitAnswer) :
    TemplatesValid (takeAnswer r a s) := by
  cases a with
  | handle x =>
    refine h.setTriggerSlot fun d st n l hd => .inl ?_
    simp only [SlotUse.admitted] at hd
    split at hd
    · cases hd
    · rename_i hk
      split at hd
      · cases hd; exact ⟨_, _, _, hk⟩
      · split at hd <;> cases hd <;> exact ⟨_, _, _, hk⟩
  | range => exact h.countMiss _
  | tableFull | past => exact (h.countMiss _).congr rfl rfl

/-! ## Firing and the late walk -/

theorem TemplatesValid.settleRecord (h : TemplatesValid s) {r : Record} (hr : r.body.Valid) (t : Time) :
    TemplatesValid (settleRecord r t s) := by
  unfold Machine.settleRecord
  dsimp only
  split
  · exact h.removeRecord _ _ _
  · split
    · exact h.removeRecord _ _ _
    · split
      · exact h.removeRecord _ _ _
      · exact h.putRecord hr

/-- A firing's effect, with the source event and the notice that it offers (R31, R32, R35). -/
def fireOffered (t : Time) (r : Record) (s : State) : State :=
  let st := firingStatus (fireEffect r t s).1 r.lateFlag
  let u := offerLabel r.body.label st t (fireEffect r t s).2
  if r.body.report.reports (r.ordinal + 1) then
    offerNotice (.fired r.handle st (r.ordinal + 1)) t r.body.label u
  else u

@[simp] theorem fireOffered_keeps (t : Time) (r : Record) (s : State) :
    (fireOffered t r s).time = s.time ∧ (fireOffered t r s).table = s.table
    ∧ (fireOffered t r s).triggers = s.triggers ∧ (fireOffered t r s).cmd = s.cmd
    ∧ (fireOffered t r s).removals = s.removals
    ∧ (fireOffered t r s).lines = (fireEffect r t s).2.lines
    ∧ (fireOffered t r s).sampler = (fireEffect r t s).2.sampler := by
  unfold fireOffered
  split <;> simp

/-- One firing: its effect with what it offers, and the record's leaving or re-timing between the source
events taken (R31 to R33, R113). -/
theorem fireRecord_eq (v : TakenEvents) (t : Time) (r : Record) (s : State) : fireRecord v t r s
    = takeBlockEvents v.after (settleRecord r t (takeBlockEvents v.before (fireOffered t r s))) := rfl

theorem TemplatesValid.fireRecord (h : TemplatesValid s) {r : Record} (hr : r.body.Valid)
    (v : TakenEvents) (t : Time) : TemplatesValid (fireRecord v t r s) := by
  rw [fireRecord_eq]
  exact (((h.congr (by simp) (by simp)).takeBlockEvents _).settleRecord hr t).takeBlockEvents _

theorem TemplatesValid.fireAll (h : TemplatesValid s) {t : Time} {rs : List Record}
    (hrs : ∀ r ∈ rs, r.body.Valid) (vs : List TakenEvents) : TemplatesValid (fireAll t rs vs s) := by
  induction rs generalizing s vs with
  | nil => exact h
  | cons r rs ih =>
    exact ih (h.fireRecord (hrs r (by simp)) _ t) (fun x hx => hrs x (by simp [hx])) _

/-- The claims of a tick before its firings: the value goes up and the pulses due end (R3, R53). -/
def tickBegun (s : State) : State :=
  (s.withTime { s.time with value := s.time.value + 1 }).withLines
    (mapAll (OutputLine.atTick (s.time.value + 1)) s.lines)

/-- A tick is its beginning, its firings, and at the end of time the stop (R3, R13, R30). -/
theorem tick_eq (vs : List TakenEvents) (s : State) :
    tick vs s
      = let u := fireAll (s.time.value + 1) (dueAt (s.time.value + 1) s) vs (tickBegun s)
        if s.time.value + 1 = Config.maxTime then
          offerNotice .timeEnd (s.time.value + 1) none (u.withTime { u.time with run := .stopped })
        else u := rfl

theorem mem_dueAt {t : Time} {r : Record} (h : r ∈ dueAt t s) : r ∈ s.table.records ∧ r.due = t := by
  simpa [dueAt] using h

theorem TemplatesValid.tick (h : TemplatesValid s) (vs : List TakenEvents) :
    TemplatesValid (tick vs s) := by
  have hf : TemplatesValid (Machine.fireAll (s.time.value + 1) (dueAt (s.time.value + 1) s) vs
      (tickBegun s)) := by
    refine TemplatesValid.fireAll ?_ (fun r hr => h.records r (mem_dueAt hr).1) vs
    exact h.congr rfl rfl
  rw [tick_eq]
  dsimp only
  split
  · exact hf.congr rfl rfl
  · exact hf

theorem TemplatesValid.takePeriod (h : TemplatesValid s) (vs : List TakenEvents) :
    TemplatesValid (takePeriod vs s) := by
  unfold Machine.takePeriod
  split
  · exact h.congr rfl rfl
  all_goals
    split
    · refine TemplatesValid.tick ?_ vs
      exact h.congr rfl rfl
    · exact h.congr rfl rfl

theorem TemplatesValid.walkAll (h : TemplatesValid s) {rs : List Record}
    (hrs : ∀ r ∈ rs, r.body.Valid) (v : Time) : TemplatesValid (walkAll v rs s) := by
  induction rs generalizing s with
  | nil => exact h
  | cons r rs ih =>
    refine ih ?_ (fun x hx => hrs x (by simp [hx]))
    unfold walkRecord
    split
    · exact h.removeRecord _ _ _
    · exact h.putRecord (hrs r (by simp))

theorem TemplatesValid.lateWalk (h : TemplatesValid s) : TemplatesValid (lateWalk s) :=
  h.walkAll (fun r hr => h.records r (List.mem_of_mem_filter hr)) _

/-! ## Every step -/

theorem TemplatesValid.hostRule (h : TemplatesValid s) (i : Instr) (c : QueuedCommand) :
    TemplatesValid (hostRule i c s) := by
  have done : ∀ {u : State} st f, TemplatesValid u → TemplatesValid (answer c st f u) :=
    fun st f hu => templatesValid_steady.answer c st f hu
  by_cases hi : Block.table ∉ touches i ∧ Block.triggers ∉ touches i
  · exact h.congr ((hostRule_touchesOnly i c s).table hi.1) ((hostRule_touchesOnly i c s).triggers hi.2)
  · cases i <;> simp only [touches, List.mem_cons, List.not_mem_nil, reduceCtorEq, or_self, or_false,
      or_true, not_false_eq_true, not_true_eq_false, and_self, and_true, and_false] at hi
    case start pin _ =>
      show TemplatesValid (startRule pin c s)
      unfold startRule
      split
      · exact done _ _ h
      · split
        · exact done _ _ h
        · refine done _ _ (TemplatesValid.lateWalk ?_)
          exact h.congr (by simp) (by simp)
    case schedule f _ =>
      show TemplatesValid (scheduleRule f c s)
      unfold scheduleRule
      split
      · exact done _ _ (h.plainAdmission (readBody_valid ‹_›) _ _)
      · exact done _ _ h
    case cancel gen slot _ =>
      show TemplatesValid (cancelRule gen slot c s)
      unfold cancelRule
      split
      · exact done _ _ h
      · split
        · exact done _ _ h
        · exact done _ _ (h.removeRecord _ _ _)
    case cancelLine line release _ =>
      show TemplatesValid (cancelLineRule line release c s)
      unfold cancelLineRule
      split
      · exact done _ _ ((h.removeRecords _ _ _).congr (releaseLine_keeps ..).2.1 (by simp))
      · exact done _ _ h
    case trigger f _ =>
      show TemplatesValid (triggerRule f c s)
      unfold triggerRule
      split
      · exact done _ _ h
      · rename_i hf
        split
        · exact done _ _ h
        · refine done _ _ (h.setTriggerSlot fun d st n l hd => .inr ?_)
          cases hd
          exact readTriggerDef_valid hf
    case triggerArm slot target _ =>
      show TemplatesValid (triggerArmRule slot target c s)
      unfold triggerArmRule
      split
      · split
        · exact done _ _ h
        · rename_i d st left l hk
          refine done _ _ (h.setTriggerSlot fun d' st' n' l' hd => .inl ?_)
          cases st <;> cases hd <;> exact ⟨_, _, _, hk⟩
      · exact done _ _ h
    case triggerClear slot disposal _ =>
      show TemplatesValid (triggerClearRule slot disposal c s)
      unfold triggerClearRule
      split
      · split
        · exact done _ _ h
        · have emptied := h.setTriggerSlot (k := ‹Fin 16›)
            (x := { s.triggers.slots[‹Fin 16›] with use := .empty }) (fun _ _ _ _ hd => by cases hd)
          dsimp only
          split
          · exact emptied.setClaim (fun _ _ he => by cases he)
          · exact done _ _ emptied
      · exact done _ _ h
    all_goals exact h

theorem TemplatesValid.eventOf (h : TemplatesValid s) {i : Instr} (hu : eventOf i s = some u) :
    TemplatesValid u := by
  by_cases hi : Block.table ∉ touches i ∧ Block.triggers ∉ touches i
  · exact h.congr ((eventOf_touchesOnly hu).table hi.1) ((eventOf_touchesOnly hu).triggers hi.2)
  · cases i <;> simp only [touches, List.mem_cons, List.not_mem_nil, reduceCtorEq, or_self, or_false,
      or_true, not_false_eq_true, not_true_eq_false, and_self, and_true, and_false] at hi
    all_goals simp only [Machine.eventOf, reduceCtorEq] at hu
    case tickClockPeriod =>
      split at hu <;> cases hu
      refine TemplatesValid.takePeriod ?_ _
      exact h.congr rfl rfl
    case triggerSourceEvent =>
      split at hu
      · cases hu
      · obtain ⟨e, -, rfl⟩ := Option.map_eq_some_iff.1 hu
        exact h.takeEvent e
    case triggerAdmissionRequest =>
      split at hu
      · rename_i hc
        split at hu <;> cases hu
        exact ((h.plainAdmission (h.claim _ _ hc) _ _).takeAnswer _ _).visitSlots _ _
      all_goals cases hu
    case replacementAdmission =>
      split at hu
      · rename_i hc
        split at hu <;> cases hu
        exact ((h.replaceAdmission (h.claim _ _ hc) _ _ _).takeAnswer _ _).visitSlots _ _
      all_goals cases hu
    case triggerCancelRequest go =>
      have cancelled : ∀ x, TemplatesValid (cancelHandle x s) := fun x => by
        unfold cancelHandle
        split
        · exact h
        · exact h.removeRecord _ _ _
      split at hu
      · rename_i x rest n _
        split at hu <;> cases hu
        · exact templatesValid_steady.goOn go
            (((cancelled x).setClaim (c := none) (by simp)).congr (by simp) (by simp))
        · exact (cancelled _).setClaim (fun _ _ he => by cases he)
      all_goals cases hu
    case resetApplies =>
      split at hu
      · cases hu
      · split at hu <;> cases hu
        exact reset_templatesValid.congr rfl rfl

theorem TemplatesValid.deviceReset (h : TemplatesValid s) {i : Instr} (hd : isDeviceReset i = true)
    (hu : exec i s = .next u) : TemplatesValid u := by
  rcases deviceReset_next hd hu with rfl | ⟨-, -, e⟩ | ⟨hr, -⟩
  · exact h
  · rw [e]; exact h.congr rfl rfl
  · exact reset_templatesValid.congr hr.table hr.triggers

end Sys2Proof.Machine
end

section
/-! Every step keeps the Action Table in order (R19 to R22). The laws of the table's own data are
separated from those on the timebase value, which a tick and a late walk break and restore. -/

namespace Sys2Proof.Machine

/-! ## The laws of the table alone -/

/-- The laws of the Action Table that do not speak of the timebase: `TableInOrder` without the span, the
templates and the due times ahead. -/
structure TableSound (t : ActionTable) : Prop where
  order : t.records.Pairwise (fun a b => a.before b = true)
  slots : t.records.Pairwise (fun a b => a.handle.slot ≠ b.handle.slot)
  standings : t.records.Pairwise (fun a b => a.standing ≠ b.standing)
  admitted : ∀ r ∈ t.records, r.standing < t.nextStanding
  gens : ∀ r ∈ t.records, r.handle.gen = t.gens[r.handle.slot]
  nonzero : ∀ i : Fin 64, t.gens[i] ≠ 0
  due : ∀ r ∈ t.records, r.due ≤ Config.maxTime

/-- The laws of the table, with those on the timebase. -/
theorem tableInOrder_iff {s : State} : TableInOrder s ↔ TimeInSpan s ∧ TemplatesValid s
    ∧ TableSound s.table ∧ (s.time.run ≠ .stopped → ∀ r ∈ s.table.records, s.time.value < r.due) :=
  ⟨fun h => ⟨h.span, h.templates, ⟨h.order, h.slots, h.standings, h.admitted, h.gens, h.nonzero, h.due⟩,
      h.future⟩,
    fun ⟨hs, ht, h, hf⟩ => ⟨hs, ht, h.order, h.slots, h.standings, h.admitted, h.gens, h.nonzero, h.due, hf⟩⟩

/-- Of two records of a list in pairs that differ, either is the other or they differ. -/
theorem pairwise_ne_of_mem {α β : Type} {f : α → β} {l : List α} (h : l.Pairwise (fun a b => f a ≠ f b))
    {x y : α} (hx : x ∈ l) (hy : y ∈ l) (e : f x = f y) : x = y :=
  List.inj_on_of_nodup_map (List.pairwise_map.2 h) hx hy e

/-- A record put into a list that it differs from in pairs keeps the pairs different. -/
theorem insertRecord_pairwise_ne {β : Type} {f : Record → β} {r : Record} {l : List Record}
    (h : l.Pairwise (fun a b => f a ≠ f b)) (hr : ∀ x ∈ l, f x ≠ f r) :
    (insertRecord r l).Pairwise (fun a b => f a ≠ f b) :=
  ((insertRecord_perm r l).pairwise_iff (fun h e => h e.symm)).2
    (List.pairwise_cons.2 ⟨fun x hx e => hr x hx e.symm, h⟩)

variable {t : ActionTable}

/-- No two records of the table have one handle (R20). -/
theorem TableSound.handles (h : TableSound t) :
    t.records.Pairwise (fun a b => a.handle ≠ b.handle) :=
  h.slots.imp fun hs e => hs (congrArg Handle.slot e)

/-- The table has at most one record a slot, and so at most 64 (R19). -/
theorem TableSound.length_le (h : TableSound t) : t.records.length ≤ 64 := by
  have hn : (t.records.map (fun r => r.handle.slot)).Nodup := List.pairwise_map.2 h.slots
  simpa using hn.length_le_card

theorem TableSound.filter (h : TableSound t) (p : Record → Bool) :
    TableSound { t with records := t.records.filter p } where
  order := h.order.filter p
  slots := h.slots.filter p
  standings := h.standings.filter p
  admitted r hr := h.admitted r (List.mem_of_mem_filter hr)
  gens r hr := h.gens r (List.mem_of_mem_filter hr)
  nonzero := h.nonzero
  due r hr := h.due r (List.mem_of_mem_filter hr)

/-- A record of a slot of its own, under the slot's generation, takes its place in the table. -/
theorem TableSound.insert (h : TableSound t) {r : Record}
    (slot : ∀ x ∈ t.records, x.handle.slot ≠ r.handle.slot)
    (standing : ∀ x ∈ t.records, x.standing ≠ r.standing) (admitted : r.standing < t.nextStanding)
    (gen : r.handle.gen = t.gens[r.handle.slot]) (due : r.due ≤ Config.maxTime) :
    TableSound { t with records := insertRecord r t.records } where
  order := insertRecord_ordered h.order standing
  slots := insertRecord_pairwise_ne h.slots slot
  standings := insertRecord_pairwise_ne h.standings standing
  admitted x hx := by
    rcases (mem_insertRecord ..).1 hx with rfl | hx
    · exact admitted
    · exact h.admitted x hx
  gens x hx := by
    rcases (mem_insertRecord ..).1 hx with rfl | hx
    · exact gen
    · exact h.gens x hx
  nonzero := h.nonzero
  due x hx := by
    rcases (mem_insertRecord ..).1 hx with rfl | hx
    · exact due
    · exact h.due x hx

/-- The generation of a slot without a record can be any but 0. -/
theorem TableSound.setGen (h : TableSound t) {k : Fin 64} {g : Byte} (hg : g ≠ 0)
    (hk : ∀ x ∈ t.records, x.handle.slot ≠ k) : TableSound { t with gens := t.gens.set k g } where
  order := h.order
  slots := h.slots
  standings := h.standings
  admitted := h.admitted
  gens x hx := by
    have := Fin.val_ne_of_ne (hk x hx).symm
    simpa [this] using h.gens x hx
  nonzero i := by
    by_cases hi : k = i
    · subst hi; simpa using hg
    · have := Fin.val_ne_of_ne hi
      simpa [this] using h.nonzero i
  due := h.due

/-- A generation is followed by one that is not 0 (R20). -/
theorem nextGeneration_ne_zero (g : Byte) : nextGeneration g ≠ 0 := by
  unfold nextGeneration
  split
  · decide
  · bv_omega

/-- A record is the only one of its slot. -/
theorem TableSound.slot_ne (h : TableSound t) {r x : Record} (hr : r ∈ t.records) (hx : x ∈ t.records)
    (hne : x.handle ≠ r.handle) : x.handle.slot ≠ r.handle.slot := fun e =>
  hne (congrArg Record.handle (pairwise_ne_of_mem h.slots hx hr e))

/-- A record that leaves: its slot is free and has its next generation (R20, R34). -/
theorem TableSound.remove (h : TableSound t) {r : Record} (hr : ∃ x ∈ t.records, x.handle = r.handle) :
    TableSound { t with
      records := dropHandle r.handle t.records
      gens := t.gens.set r.handle.slot (nextGeneration t.gens[r.handle.slot]) } := by
  obtain ⟨y, hy, e⟩ := hr
  refine (h.filter fun x => x.handle ≠ r.handle).setGen (nextGeneration_ne_zero _) fun x hx => ?_
  obtain ⟨hx, hne⟩ := (mem_dropHandle ..).1 hx
  exact e ▸ h.slot_ne hy hx (e ▸ hne)

/-- A record of the table takes a new place in it, due within the span (R33, R37). -/
theorem TableSound.retime (h : TableSound t) {r x : Record} (hr : r ∈ t.records)
    (handle : x.handle = r.handle) (standing : x.standing = r.standing) (due : x.due ≤ Config.maxTime) :
    TableSound { t with records := insertRecord x (dropHandle r.handle t.records) } := by
  refine (h.filter fun y => y.handle ≠ r.handle).insert (fun y hy => ?_) (fun y hy => ?_) ?_ ?_ due
  · obtain ⟨hy, hne⟩ := (mem_dropHandle ..).1 hy
    exact handle ▸ h.slot_ne hr hy hne
  · obtain ⟨hy, hne⟩ := (mem_dropHandle ..).1 hy
    exact standing ▸ fun e => hne (congrArg Record.handle (pairwise_ne_of_mem h.standings hy hr e))
  · exact standing ▸ h.admitted r hr
  · simpa [handle] using h.gens r hr

/-- A new record in a free slot, after every record admitted before it (R21, R27). -/
theorem TableSound.newRecord (h : TableSound t) {r : Record} (slot : ∀ x ∈ t.records, x.handle.slot ≠ r.handle.slot)
    (standing : r.standing = t.nextStanding) (gen : r.handle.gen = t.gens[r.handle.slot])
    (due : r.due ≤ Config.maxTime) :
    TableSound { t with records := insertRecord r t.records, nextStanding := t.nextStanding + 1 } := by
  have later : TableSound { t with nextStanding := t.nextStanding + 1 } :=
    { h with admitted := fun x hx => Nat.lt_succ_of_lt (h.admitted x hx) }
  refine later.insert slot (fun x hx => ?_) (standing ▸ Nat.lt_succ_self _) gen due
  exact standing ▸ (h.admitted x hx).ne

/-! ## The operations of the Action Table -/

variable {s u : State}

theorem removeRecord_sound (h : TableSound s.table) {r : Record} (e : EndReason) (v : Time)
    (hr : ∃ x ∈ s.table.records, x.handle = r.handle) : TableSound (removeRecord r e v s).table := by
  rw [removeRecord_table]
  exact h.remove hr

/-- The records after a removal. -/
theorem mem_removeRecord {r x : Record} {e : EndReason} {v : Time} :
    x ∈ (removeRecord r e v s).table.records ↔ x ∈ s.table.records ∧ x.handle ≠ r.handle := by
  simp

theorem removeRecords_sound (h : TableSound s.table) (e : EndReason) (v : Time) {l : List Record}
    (hl : ∀ r ∈ l, r ∈ s.table.records) (hp : l.Pairwise (fun a b => a.handle ≠ b.handle)) :
    TableSound (removeRecords e v l s).table := by
  induction l generalizing s with
  | nil => exact h
  | cons r l ih =>
    obtain ⟨hne, hp⟩ := List.pairwise_cons.1 hp
    exact ih (removeRecord_sound h e v ⟨r, hl r (by simp), rfl⟩)
      (fun x hx => mem_removeRecord.2 ⟨hl x (by simp [hx]), (hne x hx).symm⟩) hp

theorem admitInto_sound (h : TableSound s.table) {k : Fin 64} (b : Template) {due : Time} (late : Bool)
    (o : Origin) (hk : ∀ x ∈ s.table.records, x.handle.slot ≠ k) (hd : due ≤ Config.maxTime) :
    TableSound (admitInto k b due late o s).2.table :=
  h.newRecord hk rfl rfl hd

/-- A due time that passes the late check lies within the span, and in a run ahead of the value (R26). -/
theorem lateCheck_due {p : LatePolicy} {due d : Time} {late : Bool} (hs : TimeInSpan s)
    (hd : due ≤ Config.maxTime) (h : lateCheck p due s = some (d, late)) :
    d ≤ Config.maxTime ∧ (s.time.run ≠ .stopped → s.time.value < d) := by
  rw [lateCheck_eq] at h
  split at h
  · rename_i hrun
    cases p <;> cases h
    exact ⟨hs.run hrun.1, fun _ => Nat.lt_succ_self _⟩
  · rename_i hrun
    cases h
    exact ⟨hd, fun hr => Nat.lt_of_not_le fun hle => hrun ⟨hr, hle⟩⟩

/-- The laws of the table after a request was answered: sound, and in a run every record ahead. -/
structure TableAhead (s : State) : Prop where
  sound : TableSound s.table
  future : s.time.run ≠ .stopped → ∀ r ∈ s.table.records, s.time.value < r.due

theorem TableAhead.congr (h : TableAhead s) (ht : u.table = s.table) (hv : u.time.value = s.time.value)
    (hr : u.time.run = s.time.run) : TableAhead u :=
  ⟨ht ▸ h.sound, fun hrun r hm => hv ▸ h.future (hr ▸ hrun) r (ht ▸ hm)⟩

theorem TableAhead.removeRecord (h : TableAhead s) {r : Record} (e : EndReason) (v : Time)
    (hr : ∃ x ∈ s.table.records, x.handle = r.handle) : TableAhead (removeRecord r e v s) :=
  ⟨removeRecord_sound h.sound e v hr, fun hrun x hx => by
    simp only [removeRecord_keeps] at hrun ⊢
    exact h.future hrun x (mem_removeRecord.1 hx).1⟩

theorem TableAhead.removeRecords (h : TableAhead s) (e : EndReason) (v : Time) {l : List Record}
    (hl : ∀ r ∈ l, r ∈ s.table.records) (hp : l.Pairwise (fun a b => a.handle ≠ b.handle)) :
    TableAhead (removeRecords e v l s) := by
  refine ⟨removeRecords_sound h.sound e v hl hp, fun hrun x hx => ?_⟩
  simp only [removeRecords_keeps] at hrun ⊢
  rw [removeRecords_records] at hx
  exact h.future hrun x (List.mem_of_mem_filter hx)

theorem TableAhead.admitInto (h : TableAhead s) {k : Fin 64} (b : Template) {due : Time} (late : Bool)
    (o : Origin) (hk : ∀ x ∈ s.table.records, x.handle.slot ≠ k) (hd : due ≤ Config.maxTime)
    (hf : s.time.run ≠ .stopped → s.time.value < due) : TableAhead (admitInto k b due late o s).2 := by
  refine ⟨admitInto_sound h.sound b late o hk hd, fun hrun x hx => ?_⟩
  rcases (mem_insertRecord ..).1 hx with rfl | hx
  · exact hf hrun
  · exact h.future hrun x hx

theorem TableAhead.plainAdmission (h : TableAhead s) (hs : TimeInSpan s) (b : Template) (due : Time)
    (o : Origin) : TableAhead (plainAdmission b due o s).2 := by
  unfold Machine.plainAdmission
  split
  · exact h
  · rename_i hmax
    split
    · exact h
    · rename_i k hk
      split
      · exact h
      · rename_i hl
        obtain ⟨hd, hf⟩ := lateCheck_due hs (Nat.le_of_not_lt hmax) hl
        exact h.admitInto b _ o (freeTableSlot_some.1 hk).1 hd hf

/-- The live record of a handle. -/
theorem findRecord_some {h : Handle} {r : Record} (hr : findRecord h s = some r) :
    r ∈ s.table.records ∧ r.handle = h :=
  ⟨List.mem_of_find?_eq_some hr, by simpa using List.find?_some hr⟩

theorem TableAhead.replaceAdmission (h : TableAhead s) (hs : TimeInSpan s) (old : Handle) (b : Template)
    (due : Time) (o : Origin) : TableAhead (replaceAdmission old b due o s).2 := by
  unfold Machine.replaceAdmission
  split
  · exact h.plainAdmission hs b due o
  · rename_i r hr
    obtain ⟨hm, rfl⟩ := findRecord_some hr
    split
    · exact h
    · rename_i hmax
      split
      · exact h
      · rename_i hl
        obtain ⟨hd, hf⟩ := lateCheck_due hs (Nat.le_of_not_lt hmax) hl
        refine (h.removeRecord .cancelled _ ⟨r, hm, rfl⟩).admitInto b _ o (fun x hx => ?_) hd
          (by simpa using hf)
        obtain ⟨hx, hne⟩ := mem_removeRecord.1 hx
        exact h.sound.slot_ne hm hx hne

theorem TableAhead.cancelHandle (h : TableAhead s) (x : Handle) : TableAhead (cancelHandle x s) := by
  unfold Machine.cancelHandle
  split
  · exact h
  · rename_i r hr
    exact h.removeRecord _ _ ⟨r, (findRecord_some hr).1, rfl⟩

/-! ## Firing (R30 to R33) -/

/-- The record of a firing that is re-timed (R33). -/
def Record.retimed (t : Time) (p : Nat) (r : Record) : Record :=
  { r with ordinal := r.ordinal + 1, lateFlag := false, due := t + p, remaining := r.remaining - 1 }

/-- The record of a firing that leaves (R31, R33). -/
def Record.fired (r : Record) : Record := { r with ordinal := r.ordinal + 1, lateFlag := false }

/-- A record that fired leaves the table, or is re-timed within the span (R33). -/
theorem settleRecord_cases (r : Record) (t : Time) (s : State) :
    (∃ e, settleRecord r t s = removeRecord r.fired e t s)
    ∨ ∃ rep, r.body.repeats = some rep ∧ t + rep.period ≤ Config.maxTime
      ∧ settleRecord r t s = s.withTable { s.table with
          records := insertRecord (r.retimed t rep.period) (dropHandle r.handle s.table.records) } := by
  unfold settleRecord
  dsimp only
  split
  · exact .inl ⟨.done, rfl⟩
  · split
    · exact .inl ⟨.done, rfl⟩
    · rename_i rep hrep
      split
      · exact .inl ⟨.range, rfl⟩
      · exact .inr ⟨rep, hrep, Nat.le_of_not_lt ‹_›, rfl⟩

/-- The records after a firing: those of other handles, and the record itself where it is re-timed. -/
theorem mem_settleRecord {r x : Record} {t : Time} (h : x ∈ (settleRecord r t s).table.records) :
    x ∈ s.table.records ∧ x.handle ≠ r.handle
    ∨ ∃ rep, r.body.repeats = some rep ∧ x = r.retimed t rep.period := by
  rcases settleRecord_cases r t s with ⟨e, hs⟩ | ⟨rep, hrep, -, hs⟩ <;> rw [hs] at h
  · exact .inl (mem_removeRecord.1 h)
  · rcases (mem_insertRecord ..).1 h with rfl | h
    · exact .inr ⟨rep, hrep, rfl⟩
    · exact .inl ((mem_dropHandle ..).1 h)

/-- A firing leaves the records of other handles. -/
theorem mem_settleRecord_of_ne {r x : Record} {t : Time} (hx : x ∈ s.table.records)
    (hne : x.handle ≠ r.handle) : x ∈ (settleRecord r t s).table.records := by
  rcases settleRecord_cases r t s with ⟨e, hs⟩ | ⟨rep, -, -, hs⟩ <;> rw [hs]
  · exact mem_removeRecord.2 ⟨hx, hne⟩
  · exact (mem_insertRecord ..).2 (.inr ((mem_dropHandle ..).2 ⟨hx, hne⟩))

theorem settleRecord_sound (h : TableSound s.table) {r : Record} (hr : r ∈ s.table.records) (t : Time) :
    TableSound (settleRecord r t s).table := by
  rcases settleRecord_cases r t s with ⟨e, hs⟩ | ⟨rep, -, hmax, hs⟩ <;> rw [hs]
  · exact removeRecord_sound h e t ⟨r, hr, rfl⟩
  · exact h.retime hr rfl rfl hmax

/-- A firing's table is the one that its record's leaving or re-timing makes. -/
theorem fireRecord_table (v : TakenEvents) (t : Time) (r : Record) (s : State) : ∃ w : State,
    w.table = s.table ∧ (fireRecord v t r s).table = (settleRecord r t w).table :=
  ⟨takeBlockEvents v.before (fireOffered t r s), by simp, by rw [fireRecord_eq]; simp⟩

/-- The firings of a tick to t, over records of the table that are due then, leave a sound table in
which every record is due after t. -/
theorem fireAll_sound {t : Time} {rs : List Record} {vs : List TakenEvents} (h : TableSound s.table)
    (hv : ∀ r ∈ rs, r.body.Valid) (hm : ∀ r ∈ rs, r ∈ s.table.records)
    (hp : rs.Pairwise (fun a b => a.handle ≠ b.handle))
    (hf : ∀ x ∈ s.table.records, x ∈ rs ∨ t < x.due) :
    TableSound (fireAll t rs vs s).table ∧ ∀ x ∈ (fireAll t rs vs s).table.records, t < x.due := by
  induction rs generalizing s vs with
  | nil => exact ⟨h, fun x hx => (hf x hx).resolve_left (by simp)⟩
  | cons r rs ih =>
    obtain ⟨hne, hp⟩ := List.pairwise_cons.1 hp
    obtain ⟨w, hw, e⟩ := fireRecord_table (vs.headD .none) t r s
    have hr : r ∈ w.table.records := hw ▸ hm r (by simp)
    refine ih (s := fireRecord _ t r s) (e ▸ settleRecord_sound (hw ▸ h) hr t)
      (fun x hx => hv x (by simp [hx])) (fun x hx => ?_) hp fun x hx => ?_
    · exact e ▸ mem_settleRecord_of_ne (hw ▸ hm x (by simp [hx])) (hne x hx).symm
    · rcases mem_settleRecord (e ▸ hx) with ⟨hx, hxr⟩ | ⟨rep, hrep, rfl⟩
      · rcases hf x (hw ▸ hx) with hx' | hlt
        · rcases List.mem_cons.1 hx' with rfl | hx'
          · exact absurd rfl hxr
          · exact .inl hx'
        · exact .inr hlt
      · have hper := (hv r (by simp)).period rep hrep
        exact .inr (Nat.lt_add_of_pos_right hper)

/-- A tick leaves a sound table ahead of its value, within the span. -/
theorem tick_inOrder (h : TableInOrder s) (hr : s.time.run ≠ .stopped) (vs : List TakenEvents) :
    TableInOrder (tick vs s) := by
  obtain ⟨hspan, htmpl, hsound, hfut⟩ := tableInOrder_iff.1 h
  have hlt := hspan.run hr
  have hend := tick_eq vs s
  have htick := htmpl.tick vs
  obtain ⟨hs, hf⟩ := fireAll_sound (s := tickBegun s) (t := s.time.value + 1)
    (rs := dueAt (s.time.value + 1) s) (vs := vs) hsound
    (fun r hm => htmpl.records r (mem_dueAt hm).1) (fun r hm => (mem_dueAt hm).1)
    (hsound.handles.filter _) (fun x hx => by
      by_cases hdue : x.due = s.time.value + 1
      · exact .inl (List.mem_filter.2 ⟨hx, by simpa using hdue⟩)
      · have := hfut hr x hx
        exact .inr (by simp only [Time] at *; omega))
  have htime : (fireAll (s.time.value + 1) (dueAt (s.time.value + 1) s) vs (tickBegun s)).time
      = { s.time with value := s.time.value + 1 } := by simp [tickBegun]
  generalize fireAll (s.time.value + 1) (dueAt (s.time.value + 1) s) vs (tickBegun s) = w at *
  refine tableInOrder_iff.2 ⟨?_, htick, ?_, ?_⟩
  all_goals rw [hend]; dsimp only
  · split <;> constructor <;> simp [htime]
    · exact hlt
    · exact hlt
    · intro _
      exact lt_of_le_of_ne hlt ‹_›
  · split <;> simpa using hs
  · split
    · simp
    · intro _ r hm
      rw [htime]
      exact hf r hm

/-! ## The late walk (R37) -/

theorem walkAll_sound {v : Time} {rs : List Record} (h : TableSound s.table) (hv : v + 1 ≤ Config.maxTime)
    (hm : ∀ r ∈ rs, r ∈ s.table.records) (hp : rs.Pairwise (fun a b => a.handle ≠ b.handle)) :
    TableSound (walkAll v rs s).table := by
  induction rs generalizing s with
  | nil => exact h
  | cons r rs ih =>
    obtain ⟨hne, hp⟩ := List.pairwise_cons.1 hp
    refine ih ?_ (fun x hx => (mem_walkRecord ..).2 (.inl ⟨hm x (by simp [hx]), (hne x hx).symm⟩)) hp
    unfold walkRecord
    split
    · exact removeRecord_sound h _ _ ⟨r, hm r (by simp), rfl⟩
    · exact h.retime (hm r (by simp)) rfl rfl hv

/-- After the late walk every record is due after the value (R37). -/
theorem lateWalk_future (hp : s.table.records.Pairwise (fun a b => a.handle ≠ b.handle)) {x : Record}
    (hx : x ∈ (lateWalk s).table.records) : s.time.value < x.due := by
  rcases (mem_walkAll _ _ _ (hp.filter _) x).1 hx with ⟨hx, hne⟩ | ⟨r, -, -, rfl⟩
  · refine Nat.lt_of_not_le fun hle => ?_
    exact hne x (List.mem_filter.2 ⟨hx, by simpa using hle⟩) rfl
  · exact Nat.lt_succ_self _

theorem lateWalk_ahead (h : TableSound s.table) (hv : s.time.value < Config.maxTime) :
    TableAhead (lateWalk s) :=
  ⟨walkAll_sound h hv (fun _ hr => List.mem_of_mem_filter hr) (h.handles.filter _),
    fun _ x hx => by rw [(lateWalk_keeps s).1]; exact lateWalk_future h.handles hx⟩

end Sys2Proof.Machine
end

section
/-! Every step keeps the Action Table in order: the commands, the events and the resets (R19 to R22). -/

namespace Sys2Proof.Machine

variable {s u : State}

/-! ## The table and the timebase -/

/-- The laws of the table and the timebase together, without those on templates. -/
structure TableInTime (s : State) : Prop where
  span : TimeInSpan s
  ahead : TableAhead s

theorem tableInOrder_iff_inTime : TableInOrder s ↔ TemplatesValid s ∧ TableInTime s :=
  tableInOrder_iff.trans
    ⟨fun ⟨hs, ht, h, hf⟩ => ⟨ht, hs, h, hf⟩, fun ⟨ht, hs, ha⟩ => ⟨hs, ht, ha.sound, ha.future⟩⟩

/-- The same table at the same value stays in order, in a run only where there was one. -/
theorem TableInTime.congr (h : TableInTime s) (ht : u.table = s.table)
    (hv : u.time.value = s.time.value) (hr : u.time.run ≠ .stopped → s.time.run ≠ .stopped) :
    TableInTime u where
  span := ⟨hv ▸ h.span.value, fun hu => hv ▸ h.span.run (hr hu)⟩
  ahead := ⟨ht ▸ h.ahead.sound, fun hu r hm => hv ▸ h.ahead.future (hr hu) r (ht ▸ hm)⟩

theorem TableInTime.of_time_eq (h : TableInTime s) (ht : u.time = s.time) (ha : TableAhead u) :
    TableInTime u :=
  ⟨⟨ht ▸ h.span.value, ht ▸ h.span.run⟩, ha⟩

/-- Out of a run any value of the span will do. -/
theorem TableInTime.of_stopped (h : TableInTime s) (ht : u.table = s.table)
    (hv : u.time.value ≤ Config.maxTime) (hr : u.time.run = .stopped) : TableInTime u where
  span := ⟨hv, fun hu => absurd hr hu⟩
  ahead := ⟨ht ▸ h.ahead.sound, fun hu => absurd hr hu⟩

/-! ## The commands and events -/

theorem regate_eq_stopped : regate s = .stopped ↔ s.time.run = .stopped := by
  unfold regate
  split
  · simp_all
  all_goals split <;> simp_all

theorem TableInTime.answer (h : TableInTime s) (c : QueuedCommand) (st : Status) (f : Payload) :
    TableInTime (answer c st f s) := h.congr (by simp) (by simp) (by simp)

theorem TableInTime.hostRule (h : TableInTime s) (i : Instr) (c : QueuedCommand) :
    TableInTime (hostRule i c s) := by
  by_cases hi : Block.time ∉ touches i ∧ Block.table ∉ touches i
  · have ht := (hostRule_touchesOnly i c s).time hi.1
    exact h.congr ((hostRule_touchesOnly i c s).table hi.2) (by rw [ht]) (by rw [ht]; exact id)
  · cases i <;> simp only [touches, List.mem_cons, List.not_mem_nil, reduceCtorEq, or_self, or_false,
      or_true, not_false_eq_true, not_true_eq_false, and_self, and_true, and_false] at hi
    case clock source prescaler _ =>
      show TableInTime (clockRule source prescaler c s)
      unfold clockRule
      repeat' split
      all_goals exact h.congr rfl rfl id
    case setTime value _ =>
      show TableInTime (setTimeRule value c s)
      unfold setTimeRule
      split
      · exact h.answer ..
      · split
        · exact h.answer ..
        · rename_i hr
          refine h.of_stopped rfl ?_ (by simpa using hr)
          exact Nat.le_sub_one_of_lt value.isLt
    case start pin _ =>
      show TableInTime (startRule pin c s)
      unfold startRule
      split
      · exact h.answer ..
      · split
        · exact h.answer ..
        · rename_i hv
          refine TableInTime.answer ⟨⟨?_, fun _ => ?_⟩, ?_⟩ ..
          · rw [(lateWalk_keeps _).1]
            exact h.span.value
          · rw [(lateWalk_keeps _).1]
            exact Nat.lt_of_not_le hv
          · exact lateWalk_ahead (s := started pin s) (by simpa using h.ahead.sound)
              (Nat.lt_of_not_le hv)
    case stop => exact h.of_stopped rfl h.span.value rfl
    case gate gating polarity pin _ =>
      show TableInTime (gateRule gating polarity pin c s)
      unfold gateRule
      split
      · exact h.congr rfl rfl fun hu hs => hu (regate_eq_stopped.2 hs)
      · exact h.answer ..
    case schedule f _ =>
      show TableInTime (scheduleRule f c s)
      unfold scheduleRule
      split
      · exact (h.of_time_eq (by simp) (h.ahead.plainAdmission h.span _ _ _)).answer ..
      · exact h.answer ..
    case cancel gen slot _ =>
      show TableInTime (cancelRule gen slot c s)
      unfold cancelRule
      split
      · exact h.answer ..
      · split
        · exact h.answer ..
        · rename_i r hr
          exact (h.of_time_eq (by simp)
            (h.ahead.removeRecord _ _ ⟨r, (findRecord_some hr).1, rfl⟩)).answer ..
    case cancelLine line release _ =>
      show TableInTime (cancelLineRule line release c s)
      unfold cancelLineRule
      split
      · rename_i n rel _ _
        have removed := h.of_time_eq
          (u := removeRecords .cancelled s.time.value (recordsOnLine n s) s) (by simp)
          (h.ahead.removeRecords _ _ (fun r hr => List.mem_of_mem_filter hr)
            (h.ahead.sound.handles.filter _))
        exact (removed.congr (by simp) (by simp) (by simp)).answer ..
      · exact h.answer ..
    all_goals exact h

theorem takePeriod_inOrder (h : TableInOrder s) (vs : List TakenEvents) :
    TableInOrder (takePeriod vs s) := by
  obtain ⟨htmpl, htime⟩ := tableInOrder_iff_inTime.1 h
  have same : ∀ x : Timebase, x.value = s.time.value → (x.run ≠ .stopped → s.time.run ≠ .stopped) →
      TableInOrder (s.withTime x) := fun x hv hr =>
    tableInOrder_iff_inTime.2 ⟨htmpl.congr rfl rfl, htime.congr rfl hv hr⟩
  unfold takePeriod
  split
  · exact same _ rfl id
  all_goals
    have inRun : s.time.run ≠ .stopped := by simp_all
    split
    · exact tick_inOrder (same { s.time with run := .running, ticked := true } rfl fun _ => inRun)
        (by simp) vs
    · exact same _ rfl fun _ => inRun

theorem TableInTime.eventOf (h : TableInOrder s) {i : Instr} (hu : eventOf i s = some u) :
    TableInTime u := by
  obtain ⟨htmpl, htime⟩ := tableInOrder_iff_inTime.1 h
  by_cases hi : Block.time ∉ touches i ∧ Block.table ∉ touches i
  · have ht := (eventOf_touchesOnly hu).time hi.1
    exact htime.congr ((eventOf_touchesOnly hu).table hi.2) (by rw [ht]) (by rw [ht]; exact id)
  · cases i <;> simp only [touches, List.mem_cons, List.not_mem_nil, reduceCtorEq, or_self, or_false,
      or_true, not_false_eq_true, not_true_eq_false, and_self, and_true, and_false] at hi
    all_goals simp only [Machine.eventOf, reduceCtorEq] at hu
    case sourcePeriod =>
      split at hu <;> cases hu
      exact htime.congr rfl rfl id
    case tickClockPeriod =>
      split at hu <;> cases hu
      refine (tableInOrder_iff_inTime.1 (takePeriod_inOrder ?_ _)).2
      exact tableInOrder_iff_inTime.2 ⟨htmpl.congr rfl rfl, htime.congr rfl rfl id⟩
    case triggerAdmissionRequest =>
      split at hu
      · split at hu <;> cases hu
        rename_i r _ _ _
        have admitted := htime.of_time_eq (by simp)
          (htime.ahead.plainAdmission htime.span r.template r.due (.trigger r.slot))
        exact admitted.congr (by simp) (by simp) (by simp)
      all_goals cases hu
    case replacementAdmission =>
      split at hu
      · split at hu <;> cases hu
        rename_i r _ _ old _
        have admitted := htime.of_time_eq (by simp)
          (htime.ahead.replaceAdmission htime.span old r.template r.due (.trigger r.slot))
        exact admitted.congr (by simp) (by simp) (by simp)
      all_goals cases hu
    case triggerCancelRequest go =>
      split at hu
      · rename_i x rest n _
        have cancelled := htime.of_time_eq (by simp) (htime.ahead.cancelHandle x)
        split at hu <;> cases hu <;> exact cancelled.congr (by simp) (by simp) (by simp)
      all_goals cases hu
    case resetApplies =>
      split at hu
      · cases hu
      · split at hu <;> cases hu
        exact (tableInOrder_iff_inTime.1 reset_tableInOrder).2.congr rfl rfl id

/-! ## Every step -/

theorem TableInOrder.congr (h : TableInOrder s) (ht : u.time = s.time) (ha : u.table = s.table)
    (hr : u.triggers = s.triggers) : TableInOrder u := by
  obtain ⟨htmpl, htime⟩ := tableInOrder_iff_inTime.1 h
  exact tableInOrder_iff_inTime.2
    ⟨htmpl.congr ha hr, htime.congr ha (by rw [ht]) (by rw [ht]; exact id)⟩

theorem tableInOrder_steady : Steady TableInOrder where
  settle h := h.congr (by simp) (by simp) (by simp)
  goOn _ h := h.congr (by simp) (by simp) (by simp)
  answer _ _ _ h := h.congr (by simp) (by simp) (by simp)
  pending _ h := h.congr rfl rfl rfl
  now _ h := h.congr rfl rfl rfl

theorem TableInOrder.hostRule (h : TableInOrder s) (i : Instr) (c : QueuedCommand) :
    TableInOrder (hostRule i c s) := by
  obtain ⟨htmpl, htime⟩ := tableInOrder_iff_inTime.1 h
  exact tableInOrder_iff_inTime.2 ⟨htmpl.hostRule i c, htime.hostRule i c⟩

theorem TableInOrder.eventOf (h : TableInOrder s) {i : Instr} (hu : eventOf i s = some u) :
    TableInOrder u :=
  tableInOrder_iff_inTime.2 ⟨h.templates.eventOf hu, TableInTime.eventOf h hu⟩

theorem TableInOrder.deviceReset (h : TableInOrder s) {i : Instr} (hd : isDeviceReset i = true)
    (hu : exec i s = .next u) : TableInOrder u := by
  rcases deviceReset_next hd hu with rfl | ⟨-, -, e⟩ | ⟨hr, -⟩
  · exact h
  · rw [e]; exact h.congr rfl rfl rfl
  · exact reset_tableInOrder.congr hr.time hr.table hr.triggers

/-- Settles O55: the laws of the table's own data, those of the templates and those on the timebase,
each kept by every rule, event and reset. -/
theorem everyStepKeepsTheTableInOrder : Obligations.EveryStepKeepsTheTableInOrder := by
  intro s hs
  have sound := (tableInOrder_iff.1 hs).2.2.1
  refine ⟨sound.length_le, sound.handles, fun t ht => ?_⟩
  exact tableInOrder_steady.step ht hs (fun i c s _ h => h.hostRule i c)
    (fun i s u h hu => h.eventOf hu) (fun i s t hd hu h => h.deviceReset hd hu)

end Sys2Proof.Machine
end

section
/-! Every step keeps the triggers' lists within their limits and live (R102, R108, R109). -/

namespace Sys2Proof.Machine

variable {s u : State}

/-! ## The laws of the Trigger Table -/

/-- What the Trigger Table holds of the slot k, given the live records: its list is within its limit,
without a handle twice, and of live records of its own origin; its shots tell whether it is SPENT. -/
def SlotSound (records : List Record) (k : Fin 16) (x : SlotUse) : Prop :=
  ∀ d st n l, x = .defined d st n l →
    (l.length ≤ d.limit ∧ 1 ≤ d.limit ∧ d.limit ≤ 8) ∧ l.Nodup
    ∧ (∀ h ∈ l, ∃ r ∈ records, r.handle = h ∧ r.origin = .trigger k)
    ∧ n ≤ d.shots ∧ (st = .spent ↔ d.shots ≠ 0 ∧ n = 0)

/-- A request that its slot could make as it stands (R106, R108). -/
def RequestSound (slots : Vector TriggerSlot 16) (r : AdmissionRequest) : Prop :=
  ∃ d n l, slots[r.slot].use = .defined d .armed n l
    ∧ match r.replaces with
      | none => l.length < d.limit
      | some h => h ∈ l ∨ l.length < d.limit

/-- Every slot is sound. -/
def SlotsSound (s : State) : Prop :=
  ∀ k : Fin 16, SlotSound s.table.records k s.triggers.slots[k].use

/-- The laws of the Trigger Table, the Action Table's own apart. -/
structure TriggersSound (s : State) : Prop where
  slots : SlotsSound s
  request : ∀ e r, s.triggers.claim = some (.event e r) → RequestSound s.triggers.slots r

theorem triggersLegal_iff : TriggersLegal s ↔ TableInOrder s ∧ TriggersSound s := by
  constructor
  · intro h
    exact ⟨h.table, fun k d st n l e => ⟨h.limit k d st n l e, h.nodup k d st n l e,
      h.live k d st n l e, h.shots k d st n l e⟩, h.request⟩
  · rintro ⟨ht, hs, hr⟩
    exact ⟨ht, fun k d st n l e => (hs k d st n l e).1, fun k d st n l e => (hs k d st n l e).2.1,
      fun k d st n l e => (hs k d st n l e).2.2.1, fun k d st n l e => (hs k d st n l e).2.2.2, hr⟩

theorem TriggersSound.congr (h : TriggersSound s) (ht : u.table = s.table)
    (hr : u.triggers = s.triggers) : TriggersSound u :=
  ⟨fun k => hr ▸ ht ▸ h.slots k, fun e r hc => hr ▸ h.request e r (hr ▸ hc)⟩

/-- Every live record of s is live in u, of the same origin. -/
def KeepsInstances (s u : State) : Prop :=
  ∀ r ∈ s.table.records, ∃ x ∈ u.table.records, x.handle = r.handle ∧ x.origin = r.origin

theorem SlotSound.mono (hk : KeepsInstances s u) {k : Fin 16} {x : SlotUse}
    (h : SlotSound s.table.records k x) : SlotSound u.table.records k x := by
  intro d st n l e
  obtain ⟨hlimit, hnodup, hlive, hshots⟩ := h d st n l e
  refine ⟨hlimit, hnodup, fun y hy => ?_, hshots⟩
  obtain ⟨r, hr, rfl, ho⟩ := hlive y hy
  obtain ⟨x, hx, hh, hxo⟩ := hk r hr
  exact ⟨x, hx, hh, hxo.trans ho⟩

theorem SlotsSound.mono (h : SlotsSound s) (hk : KeepsInstances s u) (hr : u.triggers = s.triggers) :
    SlotsSound u := fun k => hr ▸ (h k).mono hk

theorem TriggersSound.mono (h : TriggersSound s) (hk : KeepsInstances s u)
    (hr : u.triggers = s.triggers) : TriggersSound u :=
  ⟨h.slots.mono hk hr, fun e r hc => hr ▸ h.request e r (hr ▸ hc)⟩

/-- A record that takes a new place keeps its handle and its origin. -/
theorem keepsInstances_retime {r x : Record} (hr : r ∈ s.table.records)
    (hp : s.table.records.Pairwise (fun a b => a.handle ≠ b.handle)) (hh : x.handle = r.handle)
    (ho : x.origin = r.origin) : KeepsInstances s (s.withTable { s.table with
      records := insertRecord x (dropHandle r.handle s.table.records) }) := by
  intro y hy
  by_cases e : y.handle = r.handle
  · obtain rfl := eq_of_handle hp hy hr e
    exact ⟨x, (mem_insertRecord ..).2 (.inl rfl), hh, ho⟩
  · exact ⟨y, (mem_insertRecord ..).2 (.inr ((mem_dropHandle ..).2 ⟨hy, e⟩)), rfl, rfl⟩

theorem keepsInstances_admitInto (k : Fin 64) (b : Template) (d : Time) (f : Bool) (o : Origin) :
    KeepsInstances s (admitInto k b d f o s).2 :=
  fun r hr => ⟨r, (mem_insertRecord ..).2 (.inr hr), rfl, rfl⟩

theorem keepsInstances_plainAdmission (b : Template) (d : Time) (o : Origin) :
    KeepsInstances s (plainAdmission b d o s).2 := by
  have same : KeepsInstances s s := fun r hr => ⟨r, hr, rfl, rfl⟩
  unfold plainAdmission
  split
  · exact same
  · split
    · exact same
    · split
      · exact same
      · exact keepsInstances_admitInto (s := s) _ _ _ _ _

/-! ## Removals -/

/-- A slot that lost a handle: its request can still be made, the limit not being reached where the
named handle is gone. -/
theorem RequestSound.removeRecord {q : AdmissionRequest} (h : RequestSound s.triggers.slots q)
    (hs : SlotsSound s) (r : Record) (e : EndReason) (v : Time) :
    RequestSound (removeRecord r e v s).triggers.slots q := by
  obtain ⟨d, n, l, hd, hr⟩ := h
  have hlen := (hs q.slot d _ n l hd).1.1
  by_cases ho : r.origin = .trigger q.slot
  · refine ⟨d, n, l.filter (fun y => y ≠ r.handle), ?_, ?_⟩
    · rw [removeRecord_use, if_pos ho, hd]
      rfl
    · have shorter : (l.filter (fun y => decide (y ≠ r.handle))).length ≤ l.length :=
        List.length_filter_le ..
      cases hq : q.replaces with
      | none =>
        simp only [hq] at hr ⊢
        omega
      | some x =>
        simp only [hq] at hr ⊢
        rcases hr with hx | hlt
        · by_cases hxr : x = r.handle
          · have := List.length_filter_lt_length_iff_exists (p := fun y => decide (y ≠ r.handle))
              |>.2 ⟨x, hx, by simp [hxr]⟩
            exact .inr (by omega)
          · exact .inl (List.mem_filter.2 ⟨hx, by simpa using hxr⟩)
        · exact .inr (by omega)
  · exact ⟨d, n, l, by rw [removeRecord_use, if_neg ho, hd], hr⟩

theorem SlotsSound.removeRecord (h : SlotsSound s)
    (hp : s.table.records.Pairwise (fun a b => a.handle ≠ b.handle)) {r x : Record}
    (hx : x ∈ s.table.records) (hh : x.handle = r.handle) (ho : x.origin = r.origin) (e : EndReason)
    (v : Time) : SlotsSound (removeRecord r e v s) := by
  intro k d st n l hd
  obtain ⟨l', hd', rfl⟩ := removeRecord_defined hd
  obtain ⟨hlimit, hnodup, hlive, hshots⟩ := h k d st n l' hd'
  have others : ∀ y ∈ l', r.origin = .trigger k → y ≠ r.handle →
      ∃ z ∈ (Machine.removeRecord r e v s).table.records, z.handle = y ∧ z.origin = .trigger k := by
    intro y hy _ hne
    obtain ⟨z, hz, rfl, hzo⟩ := hlive y hy
    exact ⟨z, mem_removeRecord.2 ⟨hz, hne⟩, rfl, hzo⟩
  split
  · rename_i hk
    refine ⟨⟨(List.length_filter_le ..).trans hlimit.1, hlimit.2⟩, hnodup.filter _, fun y hy => ?_,
      hshots⟩
    obtain ⟨hy, hne⟩ := List.mem_filter.1 hy
    exact others y hy hk (by simpa using hne)
  · rename_i hk
    refine ⟨hlimit, hnodup, fun y hy => ?_, hshots⟩
    obtain ⟨z, hz, rfl, hzo⟩ := hlive y hy
    refine ⟨z, mem_removeRecord.2 ⟨hz, fun hzr => hk ?_⟩, rfl, hzo⟩
    rw [← ho, ← eq_of_handle hp hz hx (hzr.trans hh.symm), hzo]

/-- The laws of the two tables that a tick and a late walk keep record by record. -/
structure InstancesSound (s : State) : Prop where
  table : TableSound s.table
  triggers : TriggersSound s

theorem InstancesSound.congr (h : InstancesSound s) (ht : u.table = s.table)
    (hr : u.triggers = s.triggers) : InstancesSound u :=
  ⟨ht ▸ h.table, h.triggers.congr ht hr⟩

theorem InstancesSound.removeRecord (h : InstancesSound s) {r x : Record}
    (hx : x ∈ s.table.records) (hh : x.handle = r.handle) (ho : x.origin = r.origin) (e : EndReason)
    (v : Time) : InstancesSound (removeRecord r e v s) where
  table := removeRecord_sound h.table e v ⟨x, hx, hh⟩
  triggers :=
    { slots := h.triggers.slots.removeRecord h.table.handles hx hh ho e v
      request := fun e' q hq => (h.triggers.request e' q
        (by simpa using hq)).removeRecord h.triggers.slots r e v }

theorem InstancesSound.removeRecords (h : InstancesSound s) (e : EndReason) (v : Time)
    {l : List Record} (hl : ∀ r ∈ l, r ∈ s.table.records)
    (hp : l.Pairwise (fun a b => a.handle ≠ b.handle)) : InstancesSound (removeRecords e v l s) := by
  induction l generalizing s with
  | nil => exact h
  | cons r l ih =>
    obtain ⟨hne, hp⟩ := List.pairwise_cons.1 hp
    exact ih (h.removeRecord (hl r (by simp)) rfl rfl e v)
      (fun x hx => mem_removeRecord.2 ⟨hl x (by simp [hx]), (hne x hx).symm⟩) hp

theorem InstancesSound.cancelHandle (h : InstancesSound s) (x : Handle) :
    InstancesSound (cancelHandle x s) := by
  unfold Machine.cancelHandle
  split
  · exact h
  · exact h.removeRecord (findRecord_some ‹_›).1 rfl rfl _ _

theorem InstancesSound.retime (h : InstancesSound s) {r x : Record} (hr : r ∈ s.table.records)
    (hh : x.handle = r.handle) (hs : x.standing = r.standing) (ho : x.origin = r.origin)
    (hd : x.due ≤ Config.maxTime) : InstancesSound (s.withTable { s.table with
      records := insertRecord x (dropHandle r.handle s.table.records) }) where
  table := h.table.retime hr hh hs hd
  triggers := h.triggers.mono (keepsInstances_retime hr h.table.handles hh ho) rfl

theorem InstancesSound.walkAll (h : InstancesSound s) {v : Time} {rs : List Record}
    (hv : v + 1 ≤ Config.maxTime) (hm : ∀ r ∈ rs, r ∈ s.table.records)
    (hp : rs.Pairwise (fun a b => a.handle ≠ b.handle)) : InstancesSound (walkAll v rs s) := by
  induction rs generalizing s with
  | nil => exact h
  | cons r rs ih =>
    obtain ⟨hne, hp⟩ := List.pairwise_cons.1 hp
    refine ih ?_ (fun x hx => (mem_walkRecord ..).2 (.inl ⟨hm x (by simp [hx]), (hne x hx).symm⟩)) hp
    unfold walkRecord
    split
    · exact h.removeRecord (hm r (by simp)) rfl rfl _ _
    · exact h.retime (hm r (by simp)) rfl rfl rfl hv

theorem InstancesSound.settleRecord (h : InstancesSound s) {r : Record} (hr : r ∈ s.table.records)
    (t : Time) : InstancesSound (settleRecord r t s) := by
  rcases settleRecord_cases r t s with ⟨e, hs⟩ | ⟨rep, -, hmax, hs⟩ <;> rw [hs]
  · exact h.removeRecord hr rfl rfl e t
  · exact h.retime hr rfl rfl rfl hmax

/-! ## Source events -/

theorem setTriggerSlot_slot (k j : Fin 16) (x : TriggerSlot) (s : State) :
    (setTriggerSlot k x s).triggers.slots[j] = if j = k then x else s.triggers.slots[j] := by
  by_cases h : j = k
  · subst h; simp [setTriggerSlot]
  · have := Fin.val_ne_of_ne (Ne.symm h)
    simp [setTriggerSlot, h, this]

theorem countMiss_use (k j : Fin 16) (s : State) :
    (countMiss k s).triggers.slots[j].use = s.triggers.slots[j].use := by
  rw [countMiss, setTriggerSlot_slot]
  split
  · subst j; rfl
  · rfl

theorem SlotsSound.congr_use (h : SlotsSound s) (ht : u.table = s.table)
    (hr : ∀ k : Fin 16, u.triggers.slots[k].use = s.triggers.slots[k].use) : SlotsSound u :=
  fun k => hr k ▸ ht ▸ h k

theorem SlotsSound.setTriggerSlot (h : SlotsSound s) {k : Fin 16} {x : TriggerSlot}
    (hx : SlotSound s.table.records k x.use) : SlotsSound (setTriggerSlot k x s) := by
  intro j
  rw [setTriggerSlot_slot]
  split
  · subst j; exact hx
  · exact h j

/-- With no event's claim in progress no request is outstanding. -/
theorem SlotsSound.withoutEvent (h : SlotsSound s)
    (hc : ∀ e r, s.triggers.claim ≠ some (.event e r)) : TriggersSound s :=
  ⟨h, fun e r hr => absurd hr (hc e r)⟩

/-- A visit ends with no claim, or with a request that its slot could make (R104 to R108). -/
theorem SlotsSound.visitSlots (h : SlotsSound s) (e : SourceEvent) (ks : List (Fin 16)) :
    TriggersSound (visitSlots e ks s) := by
  induction ks generalizing s with
  | nil => exact SlotsSound.withoutEvent (fun k => h k) (fun _ _ hc => nomatch hc)
  | cons k ks ih =>
    have asks : ∀ q : AdmissionRequest, RequestSound s.triggers.slots q →
        TriggersSound (setClaim (some (.event e q)) s) := fun q hq =>
      ⟨fun j => h j, fun e' r hr => by cases hr; exact hq⟩
    unfold Machine.visitSlots
    split
    · rename_i d n l hk
      split
      · exact ih h
      · split
        · rename_i hlt
          exact asks _ ⟨d, n, l, hk, hlt⟩
        · split
          · exact ih (h.congr_use (countMiss_keeps ..).2.1 (countMiss_use k · s))
          · rename_i hge _ _
            obtain ⟨⟨hlen, hpos, -⟩, -⟩ := h k _ _ _ _ hk
            refine asks _ ⟨d, n, l, hk, ?_⟩
            cases l with
            | nil => exact absurd hpos (by simpa using hge)
            | cons x l => exact .inl (by simp)
    all_goals exact ih h

theorem TriggersSound.takeEvent (h : TriggersSound s) (e : SourceEvent) :
    TriggersSound (takeEvent e s) := by
  refine SlotsSound.visitSlots ?_ _ _
  exact fun k => h.slots k

theorem InstancesSound.takeBlockEvents (h : InstancesSound s) (bs : List EventBlock) :
    InstancesSound (takeBlockEvents bs s) := by
  induction bs generalizing s with
  | nil => exact h
  | cons b bs ih =>
    refine ih ⟨by simpa using h.table, ?_⟩
    unfold takeBlockEvent
    split
    · exact h.triggers
    · split
      · exact h.triggers
      · exact h.triggers.takeEvent _

theorem InstancesSound.fireAll {t : Time} {rs : List Record} {vs : List TakenEvents}
    (h : InstancesSound s) (hm : ∀ r ∈ rs, r ∈ s.table.records)
    (hp : rs.Pairwise (fun a b => a.handle ≠ b.handle)) : InstancesSound (fireAll t rs vs s) := by
  induction rs generalizing s vs with
  | nil => exact h
  | cons r rs ih =>
    obtain ⟨hne, hp⟩ := List.pairwise_cons.1 hp
    have offered : InstancesSound (fireOffered t r s) := h.congr (by simp) (by simp)
    have fired : InstancesSound (fireRecord (vs.headD .none) t r s) := by
      rw [fireRecord_eq]
      refine ((offered.takeBlockEvents _).settleRecord ?_ t).takeBlockEvents _
      simpa using hm r (by simp)
    refine ih fired (fun x hx => ?_) hp
    rw [fireRecord_eq]
    simp only [takeBlockEvents_keeps]
    exact mem_settleRecord_of_ne (by simpa using hm x (by simp [hx])) (hne x hx).symm

theorem InstancesSound.tick (h : InstancesSound s) (vs : List TakenEvents) :
    InstancesSound (tick vs s) := by
  have begun : InstancesSound (tickBegun s) := h.congr rfl rfl
  have fired := begun.fireAll (t := s.time.value + 1) (rs := dueAt (s.time.value + 1) s) (vs := vs)
    (fun r hr => (mem_dueAt hr).1) (h.table.handles.filter _)
  rw [tick_eq]
  dsimp only
  split
  · exact fired.congr rfl rfl
  · exact fired

theorem InstancesSound.takePeriod (h : InstancesSound s) (vs : List TakenEvents) :
    InstancesSound (takePeriod vs s) := by
  unfold Machine.takePeriod
  split
  · exact h.congr rfl rfl
  all_goals
    split
    · refine InstancesSound.tick ?_ vs
      exact h.congr rfl rfl
    · exact h.congr rfl rfl

/-! ## The answers to a request -/

/-- A slot takes the handle of a record just admitted for it: the replaced handle is out of the list
and the new one at its end (R109). -/
theorem SlotsSound.takeHandle (h : SlotsSound s) {r : AdmissionRequest}
    (hr : RequestSound s.triggers.slots r) {k : Fin 64}
    (hk : ∀ x ∈ s.table.records, x.handle.slot ≠ k) (b : Template) (due : Time) (late : Bool) :
    SlotsSound (takeAnswer r (.handle (admitInto k b due late (.trigger r.slot) s).1)
      (admitInto k b due late (.trigger r.slot) s).2) := by
  have kept := h.mono (keepsInstances_admitInto k b due late (.trigger r.slot)) rfl
  refine kept.setTriggerSlot ?_
  obtain ⟨d, n, l, hd, hroom⟩ := hr
  have slot : (admitInto k b due late (.trigger r.slot) s).2.triggers.slots[r.slot].use
      = .defined d .armed n l := hd
  obtain ⟨⟨hlen, hlimit⟩, hnodup, -, hshots, hspent⟩ := h r.slot d _ n l hd
  obtain ⟨-, -, hlive, -⟩ := kept r.slot d _ n l slot
  let x := (admitInto k b due late (.trigger r.slot) s).1
  let l' := l.filter (fun y => decide (some y ≠ r.replaces))
  have room : l'.length < d.limit := by
    have shorter : l'.length ≤ l.length := List.length_filter_le ..
    cases hq : r.replaces with
    | none => simp only [hq] at hroom; omega
    | some y =>
      simp only [hq] at hroom
      rcases hroom with hy | hlt
      · have : l'.length < l.length :=
          List.length_filter_lt_length_iff_exists.2 ⟨y, hy, by simp [hq]⟩
        omega
      · omega
  have fresh : x ∉ l' := fun hx => by
    obtain ⟨y, hy, he, -⟩ := (h r.slot d _ n l hd).2.2.1 x (List.mem_of_mem_filter hx)
    exact hk y hy (congrArg Handle.slot he)
  have nodup : (l' ++ [x]).Nodup := by
    refine List.nodup_append.2 ⟨hnodup.filter _, List.nodup_singleton _, fun a ha b hb e => ?_⟩
    exact fresh ((List.mem_singleton.1 hb) ▸ e ▸ ha)
  have live : ∀ y ∈ l' ++ [x], ∃ z ∈ (admitInto k b due late (.trigger r.slot) s).2.table.records,
      z.handle = y ∧ z.origin = .trigger r.slot := by
    intro y hy
    rcases List.mem_append.1 hy with hy | hy
    · exact hlive y (List.mem_of_mem_filter hy)
    · obtain rfl := List.mem_singleton.1 hy
      exact ⟨_, (mem_insertRecord ..).2 (.inl rfl), rfl, rfl⟩
  have notSpent : ¬ (d.shots ≠ 0 ∧ n = 0) := fun hs => by simpa using hspent.2 hs
  intro d' st' n' m hm
  have size : (l' ++ [x]).length ≤ d.limit := by simpa using room
  dsimp only at hm
  rw [slot] at hm
  simp only [SlotUse.admitted] at hm
  split at hm
  · cases hm
    exact ⟨⟨size, hlimit⟩, nodup, live, hshots, hspent⟩
  · rename_i hcounted
    split at hm <;> cases hm
    · exact ⟨⟨size, hlimit⟩, nodup, live, Nat.zero_le _, by simpa using hcounted⟩
    · exact ⟨⟨size, hlimit⟩, nodup, live, by omega, by simp; omega⟩

theorem SlotsSound.takeRefusal (h : SlotsSound s) (r : AdmissionRequest) {a : AdmitAnswer}
    (ha : ∀ x, a ≠ .handle x) : SlotsSound (takeAnswer r a s) := by
  have missed : SlotsSound (countMiss r.slot s) :=
    h.congr_use (countMiss_keeps ..).2.1 (countMiss_use r.slot · s)
  cases a with
  | handle x => exact absurd rfl (ha x)
  | range => exact missed
  | tableFull | past => exact missed.congr_use rfl (fun _ => rfl)

theorem SlotsSound.takePlain (h : SlotsSound s) {r : AdmissionRequest}
    (hr : RequestSound s.triggers.slots r) (b : Template) (due : Time) :
    SlotsSound (takeAnswer r (plainAdmission b due (.trigger r.slot) s).1
      (plainAdmission b due (.trigger r.slot) s).2) := by
  unfold plainAdmission
  split
  · exact h.takeRefusal r (by simp)
  · split
    · exact h.takeRefusal r (by simp)
    · rename_i k hk
      split
      · exact h.takeRefusal r (by simp)
      · exact h.takeHandle hr (freeTableSlot_some.1 hk).1 _ _ _

theorem SlotsSound.takeReplacement (hs : TableSound s.table) (h : SlotsSound s) {r : AdmissionRequest}
    (hr : RequestSound s.triggers.slots r) (old : Handle) (b : Template) (due : Time) :
    SlotsSound (takeAnswer r (replaceAdmission old b due (.trigger r.slot) s).1
      (replaceAdmission old b due (.trigger r.slot) s).2) := by
  unfold replaceAdmission
  split
  · exact h.takePlain hr b due
  · rename_i x hfound
    obtain ⟨hx, rfl⟩ := findRecord_some hfound
    split
    · exact h.takeRefusal r (by simp)
    · split
      · exact h.takeRefusal r (by simp)
      · refine SlotsSound.takeHandle (h.removeRecord hs.handles hx rfl rfl _ _)
          (hr.removeRecord h x _ _) (fun y hy => ?_) _ _ _
        obtain ⟨hy, hne⟩ := mem_removeRecord.1 hy
        exact hs.slot_ne hx hy hne

/-! ## The commands and events -/

theorem readTriggerDef_limit {f : TriggerFields} {k : Fin 16} {d : TriggerDef}
    (h : readTriggerDef f = some (k, d)) : 1 ≤ d.limit ∧ d.limit ≤ 8 := by
  unfold readTriggerDef at h
  split at h
  · rename_i hlimit _ _
    split at h <;> cases h
    have := readRange_isSome 1 8 f.limit.toNat
    simp only [readRange] at hlimit
    split at hlimit <;> cases hlimit
    assumption
  · cases h

theorem InstancesSound.hostRule (h : InstancesSound s) (i : Instr) (c : QueuedCommand)
    (ready : hostReady i s = true) :
    TriggersSound (hostRule i c s) := by
  have done : ∀ {u : State} st f, TriggersSound u → TriggersSound (answer c st f u) :=
    fun st f hu => hu.congr (by simp) (by simp)
  have same := h.triggers
  by_cases hi : Block.table ∉ touches i ∧ Block.triggers ∉ touches i
  · exact same.congr ((hostRule_touchesOnly i c s).table hi.1)
      ((hostRule_touchesOnly i c s).triggers hi.2)
  · cases i <;> simp only [touches, List.mem_cons, List.not_mem_nil, reduceCtorEq, or_self, or_false,
      or_true, not_false_eq_true, not_true_eq_false, and_self, and_true, and_false] at hi
    case start pin _ =>
      show TriggersSound (startRule pin c s)
      unfold startRule
      split
      · exact done _ _ same
      · split
        · exact done _ _ same
        · rename_i hv
          refine done _ _ (InstancesSound.walkAll (s := started pin s)
            (h.congr (by simp) (by simp)) (Nat.lt_of_not_le hv)
            (fun _ hr => List.mem_of_mem_filter hr) ?_).triggers
          exact (by simpa using h.table.handles : (started pin s).table.records.Pairwise _).filter _
    case schedule f _ =>
      show TriggersSound (scheduleRule f c s)
      unfold scheduleRule
      split
      · exact done _ _ (same.mono (keepsInstances_plainAdmission _ _ _) (by simp))
      · exact done _ _ same
    case cancel gen slot _ =>
      show TriggersSound (cancelRule gen slot c s)
      unfold cancelRule
      split
      · exact done _ _ same
      · split
        · exact done _ _ same
        · exact done _ _ (h.removeRecord (findRecord_some ‹_›).1 rfl rfl _ _).triggers
    case cancelLine line release _ =>
      show TriggersSound (cancelLineRule line release c s)
      unfold cancelLineRule
      split
      · have removed := h.removeRecords (l := recordsOnLine ‹Fin 8› s) .cancelled s.time.value
          (fun r hr => List.mem_of_mem_filter hr) (h.table.handles.filter _)
        exact done _ _ (removed.triggers.congr (by simp) (by simp))
      · exact done _ _ same
    case trigger f _ =>
      have idle : s.triggers.claim = none := by simpa [hostReady] using ready
      show TriggersSound (triggerRule f c s)
      unfold triggerRule
      split
      · exact done _ _ same
      · rename_i k d hf
        split
        · exact done _ _ same
        · refine done _ _ (SlotsSound.withoutEvent (same.slots.setTriggerSlot ?_) ?_)
          · intro d' st n l e
            cases e
            exact ⟨⟨Nat.zero_le _, readTriggerDef_limit hf⟩, List.nodup_nil, by simp, le_refl _,
              by simp⟩
          · intro e r hc
            exact absurd (idle.symm.trans hc) (by simp)
    case triggerArm slot target _ =>
      have idle : s.triggers.claim = none := by simpa [hostReady] using ready
      show TriggersSound (triggerArmRule slot target c s)
      unfold triggerArmRule
      split
      · rename_i k tgt _ htgt
        split
        · exact done _ _ same
        · rename_i d st left l hk
          refine done _ _ (SlotsSound.withoutEvent (same.slots.setTriggerSlot ?_) ?_)
          · have unspent : tgt ≠ .spent := by
              unfold readTarget at htgt
              rintro rfl
              split at htgt <;> cases htgt
            obtain ⟨hlimit, hnodup, hlive, hshots, hspent⟩ := same.slots k d st left l hk
            intro d' st' n' l' e
            cases st <;> cases e
            · exact ⟨hlimit, hnodup, hlive, hshots, by simpa [unspent] using hspent⟩
            · exact ⟨hlimit, hnodup, hlive, hshots, by simpa [unspent] using hspent⟩
            · exact ⟨hlimit, hnodup, hlive, le_refl _, by simp [unspent]⟩
          · intro e r hc
            exact absurd (idle.symm.trans hc) (by simp)
      · exact done _ _ same
    case triggerClear slot disposal _ =>
      have idle : s.triggers.claim = none := by simpa [hostReady] using ready
      show TriggersSound (triggerClearRule slot disposal c s)
      unfold triggerClearRule
      split
      · rename_i k cancel _ _
        split
        · exact done _ _ same
        · have emptied := same.slots.setTriggerSlot (k := k)
            (x := { s.triggers.slots[k] with use := .empty }) (fun _ _ _ _ e => by cases e)
          dsimp only
          split
          · exact SlotsSound.withoutEvent (fun j => emptied j) (fun _ _ hc => by cases hc)
          · refine done _ _ (emptied.withoutEvent fun e r hc => ?_)
            exact absurd (idle.symm.trans hc) (by simp)
      · exact done _ _ same
    all_goals exact same

theorem InstancesSound.eventOf (h : InstancesSound s) {i : Instr} (hu : eventOf i s = some u) :
    TriggersSound u := by
  have same := h.triggers
  by_cases hi : Block.table ∉ touches i ∧ Block.triggers ∉ touches i
  · exact same.congr ((eventOf_touchesOnly hu).table hi.1) ((eventOf_touchesOnly hu).triggers hi.2)
  · cases i <;> simp only [touches, List.mem_cons, List.not_mem_nil, reduceCtorEq, or_self, or_false,
      or_true, not_false_eq_true, not_true_eq_false, and_self, and_true, and_false] at hi
    all_goals simp only [Machine.eventOf, reduceCtorEq] at hu
    case tickClockPeriod =>
      split at hu <;> cases hu
      refine (InstancesSound.takePeriod ?_ _).triggers
      exact h.congr rfl rfl
    case triggerSourceEvent =>
      split at hu
      · cases hu
      · obtain ⟨e, -, rfl⟩ := Option.map_eq_some_iff.1 hu
        exact same.takeEvent e
    case triggerAdmissionRequest =>
      split at hu
      · rename_i hc
        split at hu <;> cases hu
        exact (same.slots.takePlain (same.request _ _ hc) _ _).visitSlots _ _
      all_goals cases hu
    case replacementAdmission =>
      split at hu
      · rename_i hc
        split at hu <;> cases hu
        exact (SlotsSound.takeReplacement h.table same.slots (same.request _ _ hc) _ _ _).visitSlots
          _ _
      all_goals cases hu
    case triggerCancelRequest go =>
      split at hu
      · rename_i x rest n _
        have slots := (h.cancelHandle x).triggers.slots
        split at hu <;> cases hu
        · exact SlotsSound.withoutEvent (slots.congr_use (by simp) (by simp [setClaim]))
            (by simp [setClaim])
        · exact SlotsSound.withoutEvent (slots.congr_use (by simp) (fun _ => rfl))
            (by simp [setClaim])
      all_goals cases hu
    case resetApplies =>
      split at hu
      · cases hu
      · split at hu <;> cases hu
        exact (triggersLegal_iff.1 reset_triggersLegal).2.congr rfl rfl

/-! ## Every step -/

theorem TriggersLegal.instances (h : TriggersLegal s) : InstancesSound s :=
  ⟨(tableInOrder_iff.1 h.table).2.2.1, (triggersLegal_iff.1 h).2⟩

theorem TriggersLegal.congr (h : TriggersLegal s) (ht : u.time = s.time) (ha : u.table = s.table)
    (hr : u.triggers = s.triggers) : TriggersLegal u :=
  triggersLegal_iff.2 ⟨h.table.congr ht ha hr, (triggersLegal_iff.1 h).2.congr ha hr⟩

theorem triggersLegal_steady : Steady TriggersLegal where
  settle h := h.congr (by simp) (by simp) (by simp)
  goOn _ h := h.congr (by simp) (by simp) (by simp)
  answer _ _ _ h := h.congr (by simp) (by simp) (by simp)
  pending _ h := h.congr rfl rfl rfl
  now _ h := h.congr rfl rfl rfl

theorem TriggersLegal.deviceReset (h : TriggersLegal s) {i : Instr} (hd : isDeviceReset i = true)
    (hu : exec i s = .next u) : TriggersLegal u := by
  rcases deviceReset_next hd hu with rfl | ⟨-, -, e⟩ | ⟨hr, -⟩
  · exact h
  · rw [e]; exact h.congr rfl rfl rfl
  · exact reset_triggersLegal.congr hr.time hr.table hr.triggers

/-- Settles O60: a slot's list and a request under way, each through the removals, the admissions, the
visits and the commands that change them. -/
theorem everyStepKeepsTheInstancesLive : Obligations.EveryStepKeepsTheInstancesLive := by
  intro s t hs ht
  refine triggersLegal_steady.step ht hs (fun i c s ready h => ?_) (fun i s u h hu => ?_)
    (fun i s t hd hu h => h.deviceReset hd hu)
  · exact triggersLegal_iff.2
      ⟨h.table.hostRule i c, h.instances.hostRule i c ready⟩
  · exact triggersLegal_iff.2 ⟨h.table.eventOf hu, h.instances.eventOf hu⟩

end Sys2Proof.Machine
end

section
/-! Every step keeps running pulses legal (R46, R48). -/

namespace Sys2Proof.Machine

variable {s u : State}

@[simp] theorem mapAll_getElem_nat {α β : Type} {n : Nat} (f : α → β) (v : Vector α n) (i : Nat)
    (h : i < n) : (mapAll f v)[i] = f v[i] := by simp [mapAll]

/-! ## One line -/

/-- A line's running pulse, if any, stands on a SCHEDULED line at the active level, with its end after
the value. -/
def OutputLine.Legal (v : Time) (l : OutputLine) : Prop :=
  ∀ p, l.pulse = some p → l.mode = .scheduled ∧ l.level = l.active ∧ v < p.endTick

theorem OutputLine.Legal.of_none {v : Time} {l : OutputLine} (h : l.pulse = none) : l.Legal v :=
  fun p hp => absurd (h.symm.trans hp) (by simp)

theorem OutputLine.Legal.atTick {v : Time} {l : OutputLine} (h : l.Legal v) :
    (l.atTick (v + 1)).Legal (v + 1) := by
  unfold OutputLine.atTick
  split
  · rename_i p hp
    obtain ⟨hmode, hlevel, hend⟩ := h p hp
    split
    · exact .of_none rfl
    · intro q hq
      obtain rfl : p = q := Option.some.inj (hp.symm.trans hq)
      exact ⟨hmode, hlevel, by simp only [Time] at *; omega⟩
  · exact .of_none ‹_›

theorem OutputLine.Legal.atNewValue {v : Time} {l : OutputLine} (h : l.Legal v) (w : Time) :
    (l.atNewValue w).Legal w := by
  unfold OutputLine.atNewValue
  split
  · rename_i p hp
    obtain ⟨hmode, hlevel, -⟩ := h p hp
    split
    · exact .of_none rfl
    · intro q hq
      obtain rfl : p = q := Option.some.inj (hp.symm.trans hq)
      exact ⟨hmode, hlevel, Nat.lt_of_not_le ‹_›⟩
  · exact .of_none ‹_›

theorem OutputLine.Legal.release {v : Time} {l : OutputLine} (h : l.Legal v) : l.release.Legal v := by
  unfold OutputLine.release
  split
  · exact .of_none rfl
  · exact h

/-- LINE keeps a running pulse legal: its idle level cannot change while one runs (R57, R58). -/
theorem OutputLine.Legal.configure {v : Time} {l : OutputLine} (h : l.Legal v) {m : LineMode}
    {idle : Level} (hs : ¬ (l.pulse.isSome ∧ idle ≠ l.idle)) : (l.configure m idle).Legal v := by
  cases m with
  | direct => exact .of_none rfl
  | scheduled =>
    intro p hp
    have running : l.pulse = some p := hp
    obtain ⟨-, hlevel, hend⟩ := h p running
    obtain rfl : idle = l.idle := by
      by_contra hne
      exact hs ⟨by simp [running], hne⟩
    exact ⟨rfl, hlevel, hend⟩

/-- An effect on a SCHEDULED line without a pulse leaves a legal one; a pulse's width is not 0. -/
theorem OutputLine.Legal.apply {t : Time} {l : OutputLine} (hm : l.mode = .scheduled)
    (hp : l.pulse = none) {e : LineEffect} (hw : ∀ w b n, e = .pulse w b n → 1 ≤ w) :
    (l.apply e t).Legal t := by
  cases e with
  | set | clear | toggle => exact .of_none hp
  | pulse w b n =>
    intro p hq
    cases hq
    exact ⟨hm, rfl, Nat.lt_add_of_pos_right (hw w b n rfl)⟩

/-! ## All lines -/

/-- Every line is legal at the state's value. -/
def LinesLegal (s : State) : Prop := ∀ n : Fin 8, s.lines[n].Legal s.time.value

theorem pulsesLegal_iff : PulsesLegal s ↔ TemplatesValid s ∧ LinesLegal s :=
  ⟨fun h => ⟨h.templates, h.pulses⟩, fun ⟨ht, hl⟩ => ⟨ht, hl⟩⟩

theorem LinesLegal.congr (h : LinesLegal s) (hl : u.lines = s.lines)
    (hv : u.time.value = s.time.value) : LinesLegal u := fun n => hl ▸ hv ▸ h n

theorem setLine_line (n m : Fin 8) (l : OutputLine) (s : State) :
    (setLine n l s).lines[m] = if m = n then l else s.lines[m] := by
  by_cases h : m = n
  · subst h; simp [setLine]
  · have := Fin.val_ne_of_ne (Ne.symm h)
    simp [setLine, h, this]

theorem LinesLegal.setLine (h : LinesLegal s) {n : Fin 8} {l : OutputLine}
    (hl : l.Legal s.time.value) : LinesLegal (setLine n l s) := by
  intro m
  rw [setLine_line, (setLine_keeps ..).1]
  split
  · exact hl
  · exact h m

theorem truncate_line (n : Fin 8) (t : Time) (s : State) :
    (truncate n t s).lines[n] = { s.lines[n] with pulse := none } := by
  unfold truncate
  split
  · rename_i h
    cases hl : s.lines[n]
    simp_all
  · rw [setLine_line, if_pos rfl]
    split <;> rfl

theorem LinesLegal.truncate (h : LinesLegal s) (n : Fin 8) (t : Time) :
    LinesLegal (truncate n t s) := by
  unfold Machine.truncate
  split
  · exact h
  · refine LinesLegal.setLine ?_ (.of_none rfl)
    split <;> exact h.congr rfl rfl

theorem LinesLegal.lineEffect (h : LinesLegal s) (n : Fin 8) {e : LineEffect} {t : Time}
    (ht : s.time.value = t) (hw : ∀ w b k, e = .pulse w b k → 1 ≤ w) :
    LinesLegal (lineEffect n e t s).2 := by
  unfold Machine.lineEffect
  split
  · exact h
  · rename_i hmode
    refine (h.truncate n t).setLine ?_
    rw [(truncate_keeps ..).1, ht]
    refine .apply ?_ ?_ hw
    · rw [truncate_line]
      show s.lines[n].mode = .scheduled
      cases hm : s.lines[n].mode
      · exact absurd hm hmode
      · rfl
    · rw [truncate_line]

theorem LinesLegal.fireEffect (h : LinesLegal s) {r : Record} (hr : r.body.Valid) {t : Time}
    (ht : s.time.value = t) : LinesLegal (fireEffect r t s).2 := by
  unfold Machine.fireEffect
  split
  case h_4 n w ha =>
    refine h.lineEffect _ ht fun w' b k e => ?_
    cases e
    exact hr.width n w ha
  case h_5 => exact h.congr (by simp) (by simp)
  case h_6 => exact h
  all_goals exact h.lineEffect _ ht (by simp)

theorem LinesLegal.fireAll {t : Time} {rs : List Record} {vs : List TakenEvents} (h : LinesLegal s)
    (hr : ∀ r ∈ rs, r.body.Valid) (ht : s.time.value = t) : LinesLegal (fireAll t rs vs s) := by
  induction rs generalizing s vs with
  | nil => exact h
  | cons r rs ih =>
    refine ih ((h.fireEffect (hr r (by simp)) ht).congr ?_ ?_) (fun x hx => hr x (by simp [hx])) ?_
    · rw [fireRecord_eq]; simp
    · simp
    · simpa using ht

theorem LinesLegal.tick (h : LinesLegal s) (ht : TemplatesValid s) (vs : List TakenEvents) :
    LinesLegal (tick vs s) := by
  have begun : LinesLegal (tickBegun s) := fun n => by
    simpa [tickBegun] using (h n).atTick
  have fired := begun.fireAll (rs := dueAt (s.time.value + 1) s) (vs := vs) (fun r hr => ht.records r (mem_dueAt hr).1) rfl
  rw [tick_eq]
  dsimp only
  split
  · exact fired.congr rfl rfl
  · exact fired

theorem LinesLegal.takePeriod (h : LinesLegal s) (ht : TemplatesValid s) (vs : List TakenEvents) :
    LinesLegal (takePeriod vs s) := by
  unfold Machine.takePeriod
  split
  · exact h.congr rfl rfl
  all_goals
    split
    · refine LinesLegal.tick ?_ ?_ vs
      · exact h.congr rfl rfl
      · exact ht.congr rfl rfl
    · exact h.congr rfl rfl

/-! ## The commands and events -/

theorem LinesLegal.hostRule (h : LinesLegal s) (i : Instr) (c : QueuedCommand) :
    LinesLegal (hostRule i c s) := by
  have done : ∀ {u : State} st f, LinesLegal u → LinesLegal (answer c st f u) :=
    fun st f hu => hu.congr (by simp) (by simp)
  by_cases hi : Block.lines ∉ touches i ∧ Block.time ∉ touches i
  · exact h.congr ((hostRule_touchesOnly i c s).lines hi.1)
      (congrArg Timebase.value ((hostRule_touchesOnly i c s).time hi.2))
  · cases i <;> simp only [touches, List.mem_cons, List.not_mem_nil, reduceCtorEq, or_self, or_false,
      or_true, not_false_eq_true, not_true_eq_false, and_self, and_true, and_false] at hi
    case clock source prescaler _ =>
      show LinesLegal (clockRule source prescaler c s)
      unfold clockRule
      repeat' split
      all_goals exact h.congr rfl rfl
    case setTime value _ =>
      show LinesLegal (setTimeRule value c s)
      unfold setTimeRule
      split
      · exact done _ _ h
      · split
        · exact done _ _ h
        · refine done _ _ fun n => ?_
          simpa using (h n).atNewValue value.toNat
    case start pin _ =>
      show LinesLegal (startRule pin c s)
      unfold startRule
      split
      · exact done _ _ h
      · split
        · exact done _ _ h
        · exact done _ _ (h.congr (by simp) (by rw [(lateWalk_keeps _).1]; rfl))
    case stop => exact h.congr rfl rfl
    case gate gating polarity pin _ =>
      show LinesLegal (gateRule gating polarity pin c s)
      unfold gateRule
      split
      · exact h.congr rfl rfl
      · exact done _ _ h
    case cancelLine line release _ =>
      show LinesLegal (cancelLineRule line release c s)
      unfold cancelLineRule
      split
      · rename_i n rel _ _
        have removed : LinesLegal (removeRecords .cancelled s.time.value (recordsOnLine n s) s) :=
          h.congr (by simp) (by simp)
        refine done _ _ ?_
        unfold releaseLine
        split
        · exact removed.setLine (removed n).release
        · exact removed
      · exact done _ _ h
    case line line mode idle _ =>
      show LinesLegal (lineRule line mode idle c s)
      unfold lineRule
      split
      · split
        · exact done _ _ h
        · exact done _ _ (h.setLine ((h _).configure ‹_›))
      · exact done _ _ h
    case drive line level _ =>
      show LinesLegal (driveRule line level c s)
      unfold driveRule
      split
      · rename_i n v _ _
        split
        · exact done _ _ h
        · rename_i hm
          refine done _ _ (h.setLine (.of_none ?_))
          show s.lines[n].pulse = none
          cases hp : s.lines[n].pulse with
          | none => rfl
          | some p => exact absurd (h n p hp).1 hm
      · exact done _ _ h
    all_goals exact h

theorem LinesLegal.eventOf (h : LinesLegal s) (ht : TemplatesValid s) {i : Instr}
    (hu : eventOf i s = some u) : LinesLegal u := by
  by_cases hi : Block.lines ∉ touches i ∧ Block.time ∉ touches i
  · exact h.congr ((eventOf_touchesOnly hu).lines hi.1)
      (congrArg Timebase.value ((eventOf_touchesOnly hu).time hi.2))
  · cases i <;> simp only [touches, List.mem_cons, List.not_mem_nil, reduceCtorEq, or_self, or_false,
      or_true, not_false_eq_true, not_true_eq_false, and_self, and_true, and_false] at hi
    all_goals simp only [Machine.eventOf, reduceCtorEq] at hu
    case tickClockPeriod =>
      split at hu <;> cases hu
      refine LinesLegal.takePeriod ?_ ?_ _
      · exact h.congr rfl rfl
      · exact ht.congr rfl rfl
    case sourcePeriod =>
      split at hu <;> cases hu
      exact h.congr rfl rfl
    case resetApplies =>
      split at hu
      · cases hu
      · rename_i option _
        split at hu <;> cases hu
        cases option with
        | plain => exact (pulsesLegal_iff.1 reset_pulsesLegal).2.congr rfl rfl
        | holdLines => exact fun n => .of_none (by simp [softReset, resetLines, OutputLine.hold])

/-! ## Every step -/

theorem PulsesLegal.congr (h : PulsesLegal s) (ht : u.time = s.time) (ha : u.table = s.table)
    (hr : u.triggers = s.triggers) (hl : u.lines = s.lines) : PulsesLegal u := by
  obtain ⟨htmpl, hlines⟩ := pulsesLegal_iff.1 h
  exact pulsesLegal_iff.2 ⟨htmpl.congr ha hr, hlines.congr hl (by rw [ht])⟩

theorem pulsesLegal_steady : Steady PulsesLegal where
  settle h := h.congr (by simp) (by simp) (by simp) (by simp)
  goOn _ h := h.congr (by simp) (by simp) (by simp) (by simp)
  answer _ _ _ h := h.congr (by simp) (by simp) (by simp) (by simp)
  pending _ h := h.congr rfl rfl rfl rfl
  now _ h := h.congr rfl rfl rfl rfl

theorem PulsesLegal.deviceReset (h : PulsesLegal s) {i : Instr} (hd : isDeviceReset i = true)
    (hu : exec i s = .next u) : PulsesLegal u := by
  rcases deviceReset_next hd hu with rfl | ⟨-, -, e⟩ | ⟨hr, -⟩
  · exact h
  · rw [e]; exact h.congr rfl rfl rfl rfl
  · exact reset_pulsesLegal.congr hr.time hr.table hr.triggers hr.lines

theorem PulsesLegal.step {t : State} (h : step s = .next t) (hs : PulsesLegal s) : PulsesLegal t :=
  pulsesLegal_steady.step h hs
    (fun i c _ _ h => pulsesLegal_iff.2 ⟨h.templates.hostRule i c,
      (pulsesLegal_iff.1 h).2.hostRule i c⟩)
    (fun _ _ _ h hu => pulsesLegal_iff.2 ⟨h.templates.eventOf hu,
      (pulsesLegal_iff.1 h).2.eventOf h.templates hu⟩)
    (fun _ _ _ hd hu h => h.deviceReset hd hu)

end Sys2Proof.Machine
end

section
/-! Every step keeps every await on a live record (R166 to R168): a record that leaves is reported, and
the end of the step answers the awaits of the reports. -/

namespace Sys2Proof.Machine

variable {s t u w : State}

/-! ## Removals and their reports -/

/-- The handle h is live or its removal is reported. -/
def LiveOrReported (s : State) (h : Handle) : Prop :=
  (∃ r ∈ s.table.records, r.handle = h) ∨ ∃ x ∈ s.removals, x.handle = h

/-- Every await waits on a live record, or on one whose removal is reported. -/
def AwaitsTold (s : State) : Prop := ∀ a ∈ s.cmd.awaits, LiveOrReported s a.handle

/-- What is live or reported in s is so in u. -/
structure Tells (s u : State) : Prop where
  handle : ∀ h, LiveOrReported s h → LiveOrReported u h

theorem Tells.refl (s : State) : Tells s s := ⟨fun _ h => h⟩

theorem Tells.trans (h : Tells s u) (h' : Tells u w) : Tells s w :=
  ⟨fun x hx => h'.handle x (h.handle x hx)⟩

theorem Tells.congr (ht : u.table = s.table) (hr : u.removals = s.removals) : Tells s u :=
  ⟨fun _ hx => by
    unfold LiveOrReported at hx ⊢
    rwa [ht, hr]⟩

theorem Tells.records (hr : u.removals = s.removals)
    (h : ∀ r ∈ s.table.records, ∃ x ∈ u.table.records, x.handle = r.handle) : Tells s u := by
  refine ⟨?_⟩
  rintro y (⟨r, hm, rfl⟩ | hy)
  · exact .inl (h r hm)
  · exact .inr (hr ▸ hy)

theorem tells_removeRecord (r : Record) (e : EndReason) (v : Time) :
    Tells s (removeRecord r e v s) := by
  refine ⟨?_⟩
  rintro y (⟨x, hm, rfl⟩ | ⟨x, hx, rfl⟩)
  · by_cases hne : x.handle = r.handle
    · exact .inr ⟨⟨r.handle, e⟩, by simp, hne.symm⟩
    · exact .inl ⟨x, mem_removeRecord.2 ⟨hm, hne⟩, rfl⟩
  · exact .inr ⟨x, by simp [hx], rfl⟩

theorem tells_removeRecords (e : EndReason) (v : Time) (l : List Record) :
    Tells s (removeRecords e v l s) := by
  induction l generalizing s with
  | nil => exact .refl _
  | cons r l ih => exact (tells_removeRecord r e v).trans ih

theorem tells_retime {r x : Record} (hh : x.handle = r.handle) : Tells s (s.withTable { s.table with
    records := insertRecord x (dropHandle r.handle s.table.records) }) := by
  refine .records rfl fun y hy => ?_
  by_cases e : y.handle = r.handle
  · exact ⟨x, (mem_insertRecord ..).2 (.inl rfl), hh.trans e.symm⟩
  · exact ⟨y, (mem_insertRecord ..).2 (.inr ((mem_dropHandle ..).2 ⟨hy, e⟩)), rfl⟩

theorem tells_admitInto (k : Fin 64) (b : Template) (d : Time) (f : Bool) (o : Origin) :
    Tells s (admitInto k b d f o s).2 :=
  .records rfl fun y hy => ⟨y, (mem_insertRecord ..).2 (.inr hy), rfl⟩

theorem tells_plainAdmission (b : Template) (d : Time) (o : Origin) :
    Tells s (plainAdmission b d o s).2 := by
  refine .records (by simp) fun y hy => ?_
  obtain ⟨x, hx, hh, -⟩ := keepsInstances_plainAdmission b d o y hy
  exact ⟨x, hx, hh⟩

theorem tells_replaceAdmission (old : Handle) (b : Template) (d : Time) (o : Origin) :
    Tells s (replaceAdmission old b d o s).2 := by
  unfold replaceAdmission
  split
  · exact tells_plainAdmission ..
  · split
    · exact .refl _
    · split
      · exact .refl _
      · exact (tells_removeRecord ..).trans (tells_admitInto ..)

theorem tells_cancelHandle (h : Handle) : Tells s (cancelHandle h s) := by
  unfold cancelHandle
  split
  · exact .refl _
  · exact tells_removeRecord ..

theorem tells_walkAll (v : Time) (rs : List Record) : Tells s (walkAll v rs s) := by
  induction rs generalizing s with
  | nil => exact .refl _
  | cons r rs ih =>
    refine Tells.trans ?_ ih
    unfold walkRecord
    split
    · exact tells_removeRecord ..
    · exact tells_retime rfl

theorem tells_settleRecord (r : Record) (t : Time) : Tells s (settleRecord r t s) := by
  rcases settleRecord_cases r t s with ⟨e, hs⟩ | ⟨rep, -, -, hs⟩ <;> rw [hs]
  · exact tells_removeRecord r.fired e t
  · exact tells_retime rfl

theorem tells_fireAll (t : Time) (rs : List Record) (vs : List TakenEvents) :
    Tells s (fireAll t rs vs s) := by
  induction rs generalizing s vs with
  | nil => exact .refl _
  | cons r rs ih =>
    refine Tells.trans ?_ (ih _)
    let w := takeBlockEvents (vs.headD .none).before (fireOffered t r s)
    refine Tells.trans (u := settleRecord r t w)
      (.trans (u := w) (.congr (by simp [w]) (by simp [w])) (tells_settleRecord r t)) ?_
    exact .congr (by simp [fireRecord_eq, w]) (by simp [fireRecord_eq, w])

theorem tells_takePeriod (vs : List TakenEvents) : Tells s (takePeriod vs s) := by
  have ticked : ∀ {s : State}, Tells s (tick vs s) := fun {s} => by
    refine Tells.trans (u := tickBegun s) (.congr rfl rfl) ?_
    rw [tick_eq]
    dsimp only
    split
    · exact (tells_fireAll ..).trans (.congr rfl rfl)
    · exact tells_fireAll ..
  unfold takePeriod
  split
  · exact .congr rfl rfl
  all_goals
    split
    · refine Tells.trans ?_ ticked
      exact .congr rfl rfl
    · exact .congr rfl rfl

theorem tells_hostRule (i : Instr) (c : QueuedCommand) (s : State) : Tells s (hostRule i c s) := by
  have done : ∀ {u : State} st f, Tells s u → Tells s (answer c st f u) :=
    fun st f hu => hu.trans (.congr (by simp) (by simp))
  have same := Tells.refl s
  by_cases hi : Block.table ∉ touches i ∧ Block.removals ∉ touches i
  · exact .congr ((hostRule_touchesOnly i c s).table hi.1) ((hostRule_touchesOnly i c s).removals hi.2)
  · cases i <;> simp only [touches, List.mem_cons, List.not_mem_nil, reduceCtorEq, or_self, or_false,
      or_true, not_false_eq_true, not_true_eq_false, and_self, and_true] at hi
    case start pin _ =>
      show Tells s (startRule pin c s)
      unfold startRule
      split
      · exact done _ _ same
      · split
        · exact done _ _ same
        · exact done _ _ (Tells.trans (u := started pin s) (.congr (by simp) (by simp))
            (tells_walkAll ..))
    case schedule f _ =>
      show Tells s (scheduleRule f c s)
      unfold scheduleRule
      split
      · exact done _ _ (tells_plainAdmission ..)
      · exact done _ _ same
    case cancel gen slot _ =>
      show Tells s (cancelRule gen slot c s)
      unfold cancelRule
      split
      · exact done _ _ same
      · split
        · exact done _ _ same
        · exact done _ _ (tells_removeRecord ..)
    case cancelLine line release _ =>
      show Tells s (cancelLineRule line release c s)
      unfold cancelLineRule
      split
      · refine done _ _ (.trans (tells_removeRecords .cancelled s.time.value
          (recordsOnLine ‹Fin 8› s)) ?_)
        exact .congr (by simp) (by simp)
      · exact done _ _ same
    all_goals exact same

/-! ## The awaits -/

/-- A command's rule adds to the await list only an await on a live record (R166). -/
theorem hostRule_awaits (i : Instr) (c : QueuedCommand) (s : State) :
    ∀ a ∈ (hostRule i c s).cmd.awaits, a ∈ s.cmd.awaits ∨ ∃ r ∈ s.table.records, r.handle = a.handle := by
  cases i
  case await gen slot timeout _ =>
    show ∀ a ∈ (awaitRule gen slot timeout c s).cmd.awaits, _
    unfold awaitRule
    split
    · exact fun a ha => .inl (by simpa using ha)
    · rename_i x _
      split
      · exact fun a ha => .inl (by simpa using ha)
      · rename_i hlive
        split
        · exact fun a ha => .inl (by simpa using ha)
        · intro a ha
          rcases List.mem_append.1 ha with ha | ha
          · exact .inl ha
          · obtain rfl := List.mem_singleton.1 ha
            obtain ⟨r, hr⟩ := Option.ne_none_iff_exists'.1 (by simpa using hlive)
            exact .inr ⟨r, findRecord_some hr⟩
  case reset option _ =>
    show ∀ a ∈ (resetRule option c s).cmd.awaits, _
    unfold resetRule
    split
    · exact fun a ha => .inl (by simpa using ha)
    · exact fun a ha => nomatch ha
  all_goals
    simp only [hostRule, readOn,
      clockRule, setTimeRule, startRule, stopRule, gateRule, scheduleRule, cancelRule,
      cancelLineRule, lineRule, driveRule, channelRule,
      channelOffRule, channelStatusRule, samplerRule, windowRule, triggerRule,
      triggerArmRule, triggerClearRule, triggerStatusRule, streamRule, readRule, releaseRule]
    repeat' split
  all_goals exact fun a ha => .inl (by simpa using ha)

theorem takeChar_awaits (c : RxChar) (s : State) : (takeChar c s).cmd.awaits = s.cmd.awaits := by
  have sorted : ∀ tag kind p (s : State), (sortFrame tag kind p s).cmd.awaits = s.cmd.awaits := by
    intro tag kind p s
    have refused : ∀ st, (refuseFrame st tag kind s).cmd.awaits = s.cmd.awaits := fun st => by
      unfold refuseFrame
      split <;> simp [loseFrame]
    unfold sortFrame
    split
    · simp [discardTagZero]
    · split
      · rfl
      · split
        · exact refused _
        · split
          · exact refused _
          · split
            · exact refused _
            · split
              · exact refused _
              · unfold acceptFrame
                split <;> simp [loseFrame]
  have taken : ∀ b (s : State), (takeByte b s).cmd.awaits = s.cmd.awaits := by
    intro b s
    unfold takeByte
    dsimp only
    repeat' split
    all_goals simp [sorted]
  unfold takeChar
  repeat' split
  all_goals simp [taken]

theorem endClear_awaits (n : Nat) (s : State) : (endClear n s).cmd.awaits = s.cmd.awaits := by
  unfold endClear
  split <;> simp

/-- An event leaves awaits or takes them off the list. -/
theorem eventOf_awaits {i : Instr} (hu : eventOf i s = some u) :
    ∀ a ∈ u.cmd.awaits, a ∈ s.cmd.awaits := by
  have kept : u.cmd.awaits = s.cmd.awaits → ∀ a ∈ u.cmd.awaits, a ∈ s.cmd.awaits :=
    fun e a ha => e ▸ ha
  cases i
  case resetApplies =>
    simp only [eventOf] at hu
    split at hu
    · cases hu
    · split at hu <;> cases hu
      exact fun a ha => nomatch ha
  case awaitTimeout =>
    obtain ⟨a, -, rfl⟩ := Option.map_eq_some_iff.1 hu
    exact fun x hx => by simpa using List.mem_of_mem_erase hx
  case stampOffer | recoveryEnd | retransmitExpiry =>
    obtain ⟨_, -, rfl⟩ := Option.map_eq_some_iff.1 hu
    refine kept ?_
    dsimp only
    repeat' split
    all_goals simp
  case channelSample | triggerSourceEvent =>
    simp only [eventOf] at hu
    split at hu
    · cases hu
    · obtain ⟨_, -, rfl⟩ := Option.map_eq_some_iff.1 hu
      exact kept (by simp)
  case endOfTransmission =>
    simp only [eventOf] at hu
    split at hu <;> cases hu
    refine kept ?_
    simp only [takeBoundary, boundary_cmd_rest]
    unfold tellSent
    split <;> rfl
  case triggerCancelRequest go =>
    have went : ∀ w : State, ∀ a ∈ (goOn go w).cmd.awaits, a ∈ w.cmd.awaits := by
      intro w a ha
      cases go with
      | oneClaim => exact ha
      | toReply =>
        simp only [goOn, fillMade] at ha
        split at ha
        · have taken : a ∈ (takeRemovals w).cmd.awaits := ha
          rw [(takeRemovals_cmd w).2.1] at taken
          exact List.mem_of_mem_filter taken
        all_goals exact ha
    simp only [eventOf] at hu
    split at hu
    · split at hu <;> cases hu
      · exact fun a ha => by simpa [endClear_awaits] using went _ a ha
      · exact kept (by simp)
    all_goals cases hu
  all_goals
    simp only [eventOf] at hu
    repeat' split at hu
  all_goals cases hu
  all_goals exact kept (by simp [takeChar_awaits, takeBoundary])

/-- The end of an execution answers the awaits of the removals that are reported. -/
theorem AwaitsTold.goOn (h : AwaitsTold s) (go : Extent) : AwaitsTold (goOn go s) := by
  cases go with
  | oneClaim => exact h
  | toReply =>
    show AwaitsTold (fillMade s)
    unfold fillMade
    split
    · intro a ha
      have ha' : a ∈ (takeRemovals s).cmd.awaits := ha
      simp only [takeRemovals_cmd, List.mem_filter] at ha'
      obtain ⟨hm, hr⟩ := ha'
      rcases h a hm with hlive | ⟨x, hx, hxa⟩
      · exact .inl (by simpa using hlive)
      · simp only [Bool.not_eq_true', List.any_eq_false, decide_eq_true_eq] at hr
        exact absurd hxa.symm (hr x hx)
    all_goals exact h

theorem AwaitsTold.tells (h : AwaitsTold s) (ht : Tells s u)
    (ha : ∀ a ∈ u.cmd.awaits, a ∈ s.cmd.awaits) : AwaitsTold u :=
  fun a hm => ht.handle _ (h a (ha a hm))

/-- An event tells of what it removes; a soft reset leaves no await. -/
theorem eventOf_told {i : Instr} (h : AwaitsTold s) (hu : eventOf i s = some u) : AwaitsTold u := by
  have tells : Tells s u → AwaitsTold u := fun ht => h.tells ht (eventOf_awaits hu)
  by_cases hi : Block.table ∉ touches i ∧ Block.removals ∉ touches i
  · exact tells (.congr ((eventOf_touchesOnly hu).table hi.1) ((eventOf_touchesOnly hu).removals hi.2))
  · cases i <;> simp only [touches, List.mem_cons, List.not_mem_nil, reduceCtorEq, or_self, or_false,
      or_true, not_false_eq_true, not_true_eq_false, and_self, and_true] at hi
    all_goals simp only [Machine.eventOf, reduceCtorEq] at hu
    case tickClockPeriod =>
      split at hu <;> cases hu
      refine tells (Tells.trans ?_ (tells_takePeriod _))
      exact .congr rfl rfl
    case triggerAdmissionRequest =>
      split at hu
      · split at hu <;> cases hu
        rename_i r _ _ _
        exact tells ((tells_plainAdmission r.template r.due (.trigger r.slot)).trans
          (.congr (by simp) (by simp)))
      all_goals cases hu
    case replacementAdmission =>
      split at hu
      · split at hu <;> cases hu
        rename_i r _ _ old _
        exact tells ((tells_replaceAdmission old r.template r.due (.trigger r.slot)).trans
          (.congr (by simp) (by simp)))
      all_goals cases hu
    case triggerCancelRequest go =>
      split at hu
      · rename_i x rest n _
        split at hu <;> cases hu
        · refine AwaitsTold.goOn (h.tells ((tells_cancelHandle x).trans (.congr ?_ ?_)) ?_) go
          · simp
          · simp
          · intro a ha
            rw [endClear_awaits] at ha
            simpa using ha
        · exact tells ((tells_cancelHandle x).trans (.congr (by simp) (by simp)))
      all_goals cases hu
    case resetApplies =>
      split at hu
      · cases hu
      · split at hu <;> cases hu
        exact fun a ha => nomatch ha

/-! ## Every step -/

theorem AwaitsLive.told (h : AwaitsLive s) : AwaitsTold s := fun a ha => .inl (h.live a ha)

/-- The end of a step leaves no report, and the awaits that are left wait on live records (R168). -/
theorem AwaitsTold.settle (h : AwaitsTold s) : AwaitsLive (settle s) where
  live a ha := by
    obtain ⟨-, -, -, hawaits, -⟩ := settle_settlesTo s
    rw [hawaits, unreported] at ha
    obtain ⟨hm, hr⟩ := List.mem_filter.1 ha
    simp only [Bool.not_eq_true', List.any_eq_false, decide_eq_true_eq] at hr
    rcases h a hm with hlive | ⟨x, hx, hxa⟩
    · simpa using hlive
    · exact absurd hxa.symm (hr x hx)

theorem settle_removals (s : State) : (settle s).removals = [] := by
  have := congrArg State.removals (settle_settlesTo s).1
  exact this

theorem awaitsTold_steady : Steady AwaitsTold where
  settle h := h.settle.told
  goOn go h := h.goOn go
  answer _ _ _ h := h.tells (.congr (by simp) (by simp)) (by simp)
  pending _ h := h.tells (.congr rfl rfl) fun _ ha => ha
  now _ h := h.tells (.congr rfl rfl) fun _ ha => ha

theorem AwaitsTold.step (h : step s = .next t) (hs : AwaitsTold s) : AwaitsTold t := by
  refine awaitsTold_steady.step h hs (fun i c s _ h a ha => ?_) (fun _ _ _ h hu => eventOf_told h hu)
    fun i s t hd hu h => ?_
  · rcases hostRule_awaits i c s a ha with ha | hlive
    · exact (tells_hostRule i c s).handle _ (h a ha)
    · exact (tells_hostRule i c s).handle _ (.inl hlive)
  · rcases deviceReset_next hd hu with rfl | ⟨-, -, e⟩ | ⟨hr, -⟩
    · exact h
    · rw [e]; exact h.tells (.congr rfl rfl) fun _ ha => ha
    · exact fun a ha => by rw [hr.cmd] at ha; exact nomatch ha

/-- A step leaves no removal report, or it leaves the table, the command block and the reports alone. -/
theorem step_removals (h : step s = .next t) : t.removals = []
    ∨ t.table = s.table ∧ t.cmd = s.cmd ∧ t.removals = s.removals := by
  unfold step at h
  split at h
  · simp only [passTime, finish] at h
    split at h <;> cases h
    · exact .inr ⟨rfl, rfl, rfl⟩
    · exact .inl (settle_removals _)
  · rcases exec_next h with rfl | ⟨-, -, u, -, rfl⟩ | ⟨-, u, -, rfl⟩ | hd
    · exact .inr ⟨rfl, rfl, rfl⟩
    · exact .inl (settle_removals u)
    · exact .inl (settle_removals u)
    · rcases deviceReset_next hd h with rfl | ⟨-, -, e⟩ | ⟨hr, -⟩
      · exact .inr ⟨rfl, rfl, rfl⟩
      · rw [e]; exact .inr ⟨rfl, rfl, rfl⟩
      · exact .inl hr.removals

/-- Settles O56: pulses line by line; awaits by what each removal reports, which the end of the step
answers. -/
theorem everyStepKeepsPulsesLegalAndAwaitsLive :
    Obligations.EveryStepKeepsPulsesLegalAndAwaitsLive := by
  intro s t h
  refine ⟨fun hs => hs.step h, fun hs => ⟨fun a ha => ?_⟩, fun hr => ?_⟩
  · rcases step_removals h with hr | ⟨ht, hc, -⟩
    · exact (hs.told.step h a ha).resolve_right (by simp [hr])
    · rw [ht]
      exact hs.live a (hc ▸ ha)
  · rcases step_removals h with hr' | ⟨-, -, hr'⟩
    · exact hr'
    · exact hr'.trans hr

end Sys2Proof.Machine
end

section
/-! Every step keeps the channels legal (R65, R66, R68 to R76). -/

namespace Sys2Proof.Machine

variable {s u : State}

/-! ## One channel -/

/-- A pending transition is to the other level and short of the filter. -/
def PendingLegal (filter : Nat) (v : Level) (p : Option Pending) : Prop :=
  ∀ x, p = some x → x.level = v.flip ∧ x.held < filter

/-- The run states that a configuration admits. -/
def ChannelRun.Legal (cfg : ChannelConfig) : ChannelRun → Prop
  | .off => True
  | .priming k => k ≤ cfg.filter ∧ cfg.edge ≠ .both
  | .armed v p => PendingLegal cfg.filter v p ∧ (cfg.mode = .width → v = cfg.edge.preceding)
  | .measuring v p _ => PendingLegal cfg.filter v p
      ∧ (cfg.mode = .width → v = cfg.edge.preceding.flip) ∧ cfg.mode ≠ .edge

/-- The laws of a channel but for those on its run state. -/
structure Channel.Configured (ch : Channel) : Prop where
  divisor : 1 ≤ ch.config.divisor ∧ ch.config.divisor ≤ 255
  filter : ch.config.filter ≤ 15
  edge : ch.config.mode = .width ↔ ch.config.edge = .high ∨ ch.config.edge = .low
  width : ch.config.mode = .width → ch.config.divisor = 1
  count : ch.edgeCount < ch.config.divisor
  off : ch.run = .off → ch.edgeCount = 0 ∧ ch.sampling ≠ .due
  modeOff : ch.config.mode = .off → ch.run = .off

theorem channelLegal_iff {ch : Channel} : ch.Legal ↔ ch.Configured ∧ ch.run.Legal ch.config := by
  constructor
  · intro h
    refine ⟨⟨h.divisor, h.filter, h.edge, h.width, h.count, h.off, h.modeOff⟩, ?_⟩
    cases hr : ch.run with
    | off => trivial
    | priming k => exact h.priming k hr
    | armed v p => exact ⟨fun x e => h.armed v x (e ▸ hr), fun hm => h.settledArmed v p hm hr⟩
    | measuring v p t => exact ⟨fun x e => h.measuring v x t (e ▸ hr),
        fun hm => h.settledMeasuring v p t hm hr, fun hm => h.noReference v p t hm hr⟩
  · rintro ⟨h, hr⟩
    refine ⟨h.divisor, h.filter, h.edge, h.width, h.count, h.off, h.modeOff, fun k e => ?_,
      fun v p e => ?_, fun v p t e => ?_, fun v p hm e => ?_, fun v p t hm e => ?_,
      fun v p t hm e => ?_⟩
    all_goals
      rw [e] at hr
    · exact hr
    · exact hr.1 p rfl
    · exact hr.1 p rfl
    · exact hr.2 hm
    · exact hr.2.1 hm
    · exact hr.2.2 hm

/-- A channel in a run state, its configuration and edge count aside, with another run state that is
not OFF, or the same one. -/
theorem Channel.Configured.withRun {ch : Channel} (h : ch.Configured) (hn : ch.run ≠ .off)
    {r : ChannelRun} (hr : r ≠ .off) : Channel.Configured { ch with run := r } :=
  { h with
    off := fun e => absurd e hr
    modeOff := fun hm => absurd (h.modeOff hm) hn }

/-- Only the place of a sample, not OFF's, is another. -/
theorem Channel.Legal.withSampling {ch : Channel} (h : ch.Legal) {p : Sampling}
    (hp : ch.run = .off → p ≠ .due) : Channel.Legal { ch with sampling := p } :=
  { h with off := fun e => ⟨(h.off e).1, hp e⟩ }

/-- Another event count changes nothing legal. -/
theorem Channel.Legal.withEvents {ch : Channel} (h : ch.Legal) (n : BitVec 32) :
    Channel.Legal { ch with events := n } := { h with }

/-! ## The filter -/

theorem Level.eq_flip {a b : Level} (h : a ≠ b) : a = b.flip := by
  cases a <;> cases b <;> simp_all [Level.flip]

/-- A sample counts no transition and keeps the settled level, or counts one to the other level
(R69). -/
theorem filterSample_cases {filter : Nat} {v : Level} {p : Option Pending}
    (h : PendingLegal filter v p) (level : Level) (value : Time) :
    (∃ p', filterSample filter level value v p = (v, p', none) ∧ PendingLegal filter v p')
    ∨ ∃ t, filterSample filter level value v p = (v.flip, none, some (v.flip, t)) := by
  have none_legal : PendingLegal filter v none := fun _ e => nomatch e
  cases p with
  | none =>
    by_cases hl : level = v
    · exact .inl ⟨none, by simp [filterSample, hl], none_legal⟩
    · obtain rfl := Level.eq_flip hl
      by_cases hf : filter = 0
      · exact .inr ⟨value, by subst hf; exact filterSample_at_once value hl⟩
      · refine .inl ⟨_, filterSample_seen value hl hf, fun x e => ?_⟩
        cases e
        exact ⟨rfl, Nat.pos_of_ne_zero hf⟩
  | some x =>
    obtain ⟨hx, hheld⟩ := h x rfl
    by_cases hl : level = x.level
    · subst hl
      by_cases hf : filter ≤ x.held + 1
      · exact .inr ⟨x.stamp, by rw [filterSample_counts value v hf, hx]⟩
      · refine .inl ⟨_, filterSample_held value v (Nat.lt_of_not_le hf), fun y e => ?_⟩
        cases e
        exact ⟨hx, Nat.lt_of_not_le hf⟩
    · exact .inl ⟨none, filterSample_dropped filter value v hl, none_legal⟩

/-! ## Qualified transitions -/

/-- A channel after an event of its own (R78). -/
def Channel.counted (ch : Channel) : Channel := { ch with events := ch.events + 1 }

/-- A PERIOD channel after a divided edge (R75). -/
def Channel.afterPeriodEdge (t : Time) (ch : Channel) : Channel :=
  match ch.run with
  | .armed v p => { ch with run := .measuring v p t }
  | .measuring v p _ => Channel.counted { ch with run := .measuring v p t }
  | .off | .priming _ => ch

/-- A WIDTH channel after a qualified transition (R76). -/
def Channel.afterWidthEdge (d : Polarity) (t : Time) (ch : Channel) : Channel :=
  match ch.run with
  | .armed v p => if ch.config.edge.leads d then { ch with run := .measuring v p t } else ch
  | .measuring v p _ =>
      if ch.config.edge.leads d then ch else Channel.counted { ch with run := .armed v p }
  | .off | .priming _ => ch

/-- A channel after a qualified transition to a level (R70, R73). -/
def Channel.afterTransition (q : Level) (t : Time) (ch : Channel) : Channel :=
  let d := directionTo q
  let divided := divide ch.config.divisor ch.edgeCount
  let ch' := { ch with edgeCount := divided.2 }
  match ch.config.mode with
  | .off => ch
  | .width => ch.afterWidthEdge d t
  | .edge => if ch.config.edge.selects d then if divided.1 then ch'.counted else ch' else ch
  | .period => if ch.config.edge.selects d then if divided.1 then ch'.afterPeriodEdge t else ch' else ch

theorem formEvent_channel (n : Fin 8) (o : StampOffer) (t : Time) (s : State) :
    (formEvent n o t s).channels[n.val] = s.channels[n.val].counted := by
  rw [formEvent_eq]
  simp [Channel.counted]

theorem periodEdge_channel (n : Fin 8) (t : Time) (s : State) :
    (periodEdge n t s).channels[n.val] = s.channels[n.val].afterPeriodEdge t := by
  cases hr : s.channels[n.val].run <;>
    simp [periodEdge, Channel.afterPeriodEdge, hr, formEvent_channel]

theorem widthEdge_channel (n : Fin 8) (d : Polarity) (t : Time) (s : State) :
    (widthEdge n d t s).channels[n.val] = s.channels[n.val].afterWidthEdge d t := by
  cases hr : s.channels[n.val].run
  case armed | measuring =>
    simp only [widthEdge, Channel.afterWidthEdge, hr, Fin.getElem_fin]
    split <;> simp [formEvent_channel]
  all_goals simp [widthEdge, Channel.afterWidthEdge, hr]

/-- What a qualified transition does to its channel. -/
theorem takeTransition_channel (n : Fin 8) (q : Level) (t : Time) (s : State) :
    (takeTransition n q t s).channels[n.val] = s.channels[n.val].afterTransition q t := by
  cases hm : s.channels[n.val].config.mode
  case off => simp [takeTransition, Channel.afterTransition, hm]
  case width => simp [takeTransition, Channel.afterTransition, hm, widthEdge_channel]
  all_goals
    simp only [takeTransition, Channel.afterTransition, hm, edgeEvent, Fin.getElem_fin]
    split
    · split <;> simp [formEvent_channel, periodEdge_channel]
    · rfl

theorem divide_lt {d k : Nat} (hd : 1 ≤ d) : (divide d k).2 < d := by
  unfold divide
  split
  · exact hd
  · exact Nat.lt_of_not_le ‹_›

theorem Channel.Legal.withEdgeCount {ch : Channel} (h : ch.Legal) (hn : ch.run ≠ .off) :
    Channel.Legal { ch with edgeCount := (divide ch.config.divisor ch.edgeCount).2 } :=
  { h with
    count := divide_lt h.divisor.1
    off := fun e => absurd e hn }

/-- In WIDTH the transition from the level before a pulse is the leading edge. -/
theorem EdgeSelection.leads_iff {e : EdgeSelection} (he : e = .high ∨ e = .low) (q : Level) :
    e.leads (directionTo q) = decide (q = e.preceding.flip) := by
  rcases he with rfl | rfl <;> cases q <;> rfl

/-- A transition to q of a channel whose filter has let it through leaves the channel legal. -/
theorem Channel.Legal.transition {ch : Channel} (h : ch.Legal) {v : Level} {p : Option Pending}
    (hr : ch.run = .armed v p ∨ ∃ t, ch.run = .measuring v p t) (t : Time) :
    Channel.Legal (Channel.afterTransition v.flip t { ch with run := ch.run.filtered v.flip none }) := by
  obtain ⟨hc, hl⟩ := channelLegal_iff.1 h
  have notOff : ch.run ≠ .off := by rcases hr with hr | ⟨_, hr⟩ <;> simp [hr]
  have none_legal : ∀ w, PendingLegal ch.config.filter w none := fun w _ e => nomatch e
  cases hm : ch.config.mode with
  | off => exact absurd (hc.modeOff hm) notOff
  | width =>
    have lead : ch.config.edge.leads (directionTo v.flip)
        = decide (v.flip = ch.config.edge.preceding.flip) := EdgeSelection.leads_iff (hc.edge.1 hm) _
    simp only [Channel.afterTransition, hm, Channel.afterWidthEdge]
    rcases hr with hr | ⟨_, hr⟩ <;> simp only [hr, ChannelRun.Legal, ChannelRun.filtered] at hl ⊢
    · obtain rfl := hl.2 hm
      rw [if_pos (by simpa using lead)]
      exact channelLegal_iff.2 ⟨hc.withRun notOff (by simp), none_legal _, fun _ => rfl, by simp [hm]⟩
    · obtain rfl := hl.2.1 hm
      have back : ch.config.edge.preceding.flip.flip = ch.config.edge.preceding := by
        cases ch.config.edge <;> rfl
      have trailing : ch.config.edge.preceding ≠ ch.config.edge.preceding.flip := by
        cases ch.config.edge <;> simp [EdgeSelection.preceding, Level.flip]
      rw [if_neg (by rw [lead, back]; simpa using trailing)]
      refine Channel.Legal.withEvents ?_ _
      exact channelLegal_iff.2 ⟨hc.withRun notOff (by simp), none_legal _, fun _ => back⟩
  | edge =>
    rcases hr with hr | ⟨r, hr⟩
    · have base : Channel.Legal { ch with run := ch.run.filtered v.flip none } :=
        channelLegal_iff.2 ⟨hc.withRun notOff (by simp [hr, ChannelRun.filtered]), by
          simpa [hr, ChannelRun.filtered, ChannelRun.Legal, hm] using none_legal v.flip⟩
      have counted := base.withEdgeCount (by simp [hr, ChannelRun.filtered])
      simp only [Channel.afterTransition, hm]
      split
      · split
        · exact counted.withEvents _
        · exact counted
      · exact base
    · exact absurd hr (h.noReference v p r hm)
  | period =>
    have base : Channel.Legal { ch with run := ch.run.filtered v.flip none } := by
      refine channelLegal_iff.2 ⟨hc.withRun notOff ?_, ?_⟩
      · rcases hr with hr | ⟨_, hr⟩ <;> simp [hr, ChannelRun.filtered]
      · rcases hr with hr | ⟨_, hr⟩ <;>
          simpa [hr, ChannelRun.filtered, ChannelRun.Legal, hm] using none_legal v.flip
    have notOff' : ch.run.filtered v.flip none ≠ .off := by
      rcases hr with hr | ⟨_, hr⟩ <;> simp [hr, ChannelRun.filtered]
    have counted := base.withEdgeCount notOff'
    have measured : ∀ r, r = ChannelRun.measuring v.flip none t → Channel.Legal { ch with
        run := r, edgeCount := (divide ch.config.divisor ch.edgeCount).2 } := by
      rintro r rfl
      obtain ⟨hc', -⟩ := channelLegal_iff.1 counted
      refine channelLegal_iff.2 ⟨hc'.withRun notOff' (by simp), none_legal _, ?_, ?_⟩ <;> simp [hm]
    simp only [Channel.afterTransition, hm]
    split
    · split
      · unfold Channel.afterPeriodEdge
        rcases hr with hr | ⟨_, hr⟩
        · simpa [hr, ChannelRun.filtered] using measured _ rfl
        · simpa [hr, ChannelRun.filtered, Channel.counted] using (measured _ rfl).withEvents _
      · exact counted
    · exact base

/-! ## Samples -/

theorem setChannel_channel (n m : Fin 8) (c : Channel) (s : State) :
    (setChannel n c s).channels[m] = if m = n then c else s.channels[m] := by
  split
  · subst m; simp
  · exact setChannel_other ‹_› c s

theorem ChannelsLegal.congr (h : ChannelsLegal s) (hc : u.channels = s.channels) : ChannelsLegal u :=
  fun n => hc ▸ h n

theorem ChannelsLegal.setChannel (h : ChannelsLegal s) {n : Fin 8} {c : Channel} (hc : c.Legal) :
    ChannelsLegal (setChannel n c s) := by
  intro m
  rw [setChannel_channel]
  split
  · exact hc
  · exact h m

theorem ChannelsLegal.sampleRunning (h : ChannelsLegal s) {n : Fin 8} {v : Level} {p : Option Pending}
    (hr : s.channels[n].run = .armed v p ∨ ∃ t, s.channels[n].run = .measuring v p t) :
    ChannelsLegal (sampleRunning n v p s) := by
  obtain ⟨hc, hl⟩ := channelLegal_iff.1 (h n)
  have pending : PendingLegal s.channels[n].config.filter v p := by
    rcases hr with hr | ⟨_, hr⟩ <;> rw [hr] at hl <;> exact hl.1
  rcases filterSample_cases pending s.pins.inputs[n] s.time.value with ⟨p', hq, hp'⟩ | ⟨t, hq⟩
  · rw [sampleRunning_quiet hq]
    refine h.setChannel (channelLegal_iff.2 ⟨hc.withRun ?_ ?_, ?_⟩)
    · rcases hr with hr | ⟨_, hr⟩ <;> exact fun e => nomatch hr.symm.trans e
    · rcases hr with hr | ⟨_, hr⟩ <;> simp only [Fin.getElem_fin] at hr <;>
        simp [hr, ChannelRun.filtered]
    · rcases hr with hr | ⟨_, hr⟩ <;> rw [hr] at hl <;> simp only [Fin.getElem_fin] at hr <;>
        simp only [hr] <;> exact ⟨hp', hl.2⟩
  · rw [sampleRunning_counts hq]
    intro m
    by_cases hm : m = n
    · subst hm
      have := (h m).transition hr t
      simp only [Fin.getElem_fin, takeTransition_channel, setChannel_same] at this ⊢
      exact this
    · have other := (takeTransition_other hm v.flip t (Machine.setChannel n { s.channels[n.val] with
        run := s.channels[n.val].run.filtered v.flip none } s)).trans (setChannel_other hm _ s)
      simp only [Fin.getElem_fin, other]
      exact h m

theorem ChannelsLegal.samplePriming (h : ChannelsLegal s) {n : Fin 8} {k : Nat}
    (hr : s.channels[n].run = .priming k) : ChannelsLegal (samplePriming n k s) := by
  obtain ⟨hc, hl⟩ := channelLegal_iff.1 (h n)
  rw [hr] at hl
  refine h.setChannel (channelLegal_iff.2 ⟨hc.withRun (fun e => nomatch hr.symm.trans e) ?_, ?_⟩)
  · repeat' split
    all_goals simp
  · split
    · exact ⟨Nat.zero_le _, hl.2⟩
    · split
      · exact ⟨(fun _ e => nomatch e), fun _ => rfl⟩
      · exact ⟨Nat.le_of_lt_succ (Nat.lt_of_not_le ‹_›), hl.2⟩

theorem ChannelsLegal.takeSample (h : ChannelsLegal s) (n : Fin 8) : ChannelsLegal (takeSample n s) := by
  unfold Machine.takeSample
  split
  · exact h
  · exact h.samplePriming ‹_›
  · exact h.sampleRunning (.inl ‹_›)
  · exact h.sampleRunning (.inr ⟨_, ‹_›⟩)

/-! ## The commands and events -/

theorem readChannel_configured {f : ChannelFields} {n : Fin 8} {cfg : ChannelConfig}
    (h : readChannel f = some (n, cfg)) : 1 ≤ cfg.divisor ∧ cfg.divisor ≤ 255 ∧ cfg.filter ≤ 15
      ∧ (cfg.mode = .width ↔ cfg.edge = .high ∨ cfg.edge = .low)
      ∧ (cfg.mode = .width → cfg.divisor = 1) := by
  unfold readChannel at h
  split at h
  · rename_i m hn hmode
    split at h
    · rename_i e d k q hedge hdiv hfilter hq
      cases h
      have edge : m = .width ↔ e = .high ∨ e = .low := by
        unfold readEdge at hedge
        split at hedge <;> cases hedge <;> simp_all
      have divisor : 1 ≤ d ∧ d ≤ 255 ∧ (m = .width → d = 1) := by
        unfold readDivisor at hdiv
        split at hdiv <;> cases hdiv
        rename_i hbad
        obtain ⟨hzero, hwidth⟩ := not_or.1 hbad
        have : f.divisor.toNat ≠ 0 := fun e => hzero (BitVec.eq_of_toNat_eq (by simpa using e))
        refine ⟨Nat.one_le_iff_ne_zero.2 this, by bv_omega, fun hm => ?_⟩
        by_contra hne
        exact hwidth ⟨hm, fun e => hne (by rw [e]; rfl)⟩
      have filter : k ≤ 15 := by
        unfold readRange at hfilter
        split at hfilter <;> cases hfilter
        exact (‹_ ∧ _› : _ ∧ _).2
      exact ⟨divisor.1, divisor.2.1, filter, edge, divisor.2.2⟩
    · cases h
  · cases h

/-- The run state that CHANNEL enters is one that its configuration admits (R71, R72). -/
theorem enteredRun_legal {cfg : ChannelConfig}
    (he : cfg.mode = .width ↔ cfg.edge = .high ∨ cfg.edge = .low) (pin : Level) :
    (enteredRun cfg pin).Legal cfg ∧ (cfg.mode = .off ↔ enteredRun cfg pin = .off) := by
  unfold enteredRun
  split
  · exact ⟨trivial, by simp_all⟩
  · refine ⟨⟨(fun _ e => nomatch e), fun hm => ?_⟩, by simp_all⟩
    simp_all
  · exact ⟨⟨Nat.zero_le _, by simp_all⟩, by simp_all⟩

theorem ChannelsLegal.hostRule (h : ChannelsLegal s) (i : Instr) (c : QueuedCommand) :
    ChannelsLegal (hostRule i c s) := by
  have done : ∀ {u : State} st f, ChannelsLegal u → ChannelsLegal (answer c st f u) :=
    fun st f hu => hu.congr (by simp)
  by_cases hi : Block.channels ∉ touches i
  · exact h.congr ((hostRule_touchesOnly i c s).channels hi)
  · cases i <;> simp only [touches, List.mem_cons, List.not_mem_nil, reduceCtorEq, or_self, or_false,
      or_true, not_false_eq_true, not_true_eq_false] at hi
    case clock source prescaler _ =>
      show ChannelsLegal (clockRule source prescaler c s)
      unfold clockRule
      split
      · split
        · exact done _ _ h
        · refine done _ _ fun n => ?_
          simp only [withChannels_channels, mapAll_getElem]
          refine (h n).withSampling fun hoff => ?_
          have := ((h n).off hoff).2
          cases hs : s.channels[n].sampling <;> simp_all [Sampling.atClock]
      · exact done _ _ h
    case channel f pin _ =>
      show ChannelsLegal (channelRule f pin c s)
      unfold channelRule
      split
      · exact done _ _ h
      · rename_i n cfg hf
        split
        · exact done _ _ h
        · rename_i hoff
          obtain ⟨hlow, hhigh, hfilter, hedge, hwidth⟩ := readChannel_configured hf
          obtain ⟨hrun, hmode⟩ := enteredRun_legal hedge (readInput n pin s).pins.inputs[n]
          refine done _ _ (ChannelsLegal.setChannel (h.congr (by simp)) (channelLegal_iff.2 ⟨?_, hrun⟩))
          exact ⟨⟨hlow, hhigh⟩, hfilter, hedge, hwidth, hlow,
            fun _ => ⟨rfl, ((h n).off (by simpa using hoff)).2⟩, hmode.1⟩
    case channelOff channel _ =>
      show ChannelsLegal (channelOffRule channel c s)
      unfold channelOffRule
      split
      · exact done _ _ h
      · rename_i n _
        refine done _ _ (h.setChannel (channelLegal_iff.2 ⟨?_, trivial⟩))
        refine ⟨(h n).divisor, (h n).filter, (h n).edge, (h n).width, (h n).divisor.1,
          fun _ => ⟨rfl, ?_⟩, fun _ => rfl⟩
        simp only [Channel.switchedOff]
        cases s.channels[n].sampling <;> simp [Sampling.atOff]
    all_goals exact h

theorem ChannelsLegal.eventOf (h : ChannelsLegal s) {i : Instr} (hu : eventOf i s = some u) :
    ChannelsLegal u := by
  by_cases hi : Block.channels ∉ touches i
  · exact h.congr ((eventOf_touchesOnly hu).channels hi)
  · cases i <;> simp only [touches, List.mem_cons, List.not_mem_nil, reduceCtorEq, or_self, or_false,
      or_true, not_false_eq_true, not_true_eq_false] at hi
    all_goals simp only [Machine.eventOf, reduceCtorEq] at hu
    case tickClockPeriod =>
      split at hu <;> cases hu
      intro n
      simp only [takePeriod_keeps, readGate_keeps, withTime_channels, withChannels_channels,
        mapAll_getElem]
      exact (h n).withSampling fun hoff => by rw [if_pos (.inr hoff)]; exact fun e => nomatch e
    case channelSample n pin =>
      split at hu
      · cases hu
      · rename_i hoff
        obtain ⟨place, hplace, rfl⟩ := Option.map_eq_some_iff.1 hu
        refine ChannelsLegal.takeSample (ChannelsLegal.setChannel (h.congr (by simp)) ?_) n
        exact (h n).withSampling fun e => absurd e hoff
    case resetApplies =>
      split at hu
      · cases hu
      · split at hu <;> cases hu
        exact reset_channelsLegal.congr rfl

/-! ## Every step -/

theorem channelsLegal_steady : Steady ChannelsLegal where
  settle h := h.congr (by simp)
  goOn _ h := h.congr (by simp)
  answer _ _ _ h := h.congr (by simp)
  pending _ h := h.congr rfl
  now _ h := h.congr rfl

theorem ChannelsLegal.step {t : State} (h : step s = .next t) (hs : ChannelsLegal s) :
    ChannelsLegal t := by
  refine channelsLegal_steady.step h hs (fun i c _ _ h => h.hostRule i c)
    (fun _ _ _ h hu => h.eventOf hu) fun i s t hd hu h => ?_
  rcases deviceReset_next hd hu with rfl | ⟨-, -, e⟩ | ⟨hr, -⟩
  · exact h
  · rw [e]; exact h.congr rfl
  · exact reset_channelsLegal.congr hr.channels

end Sys2Proof.Machine
end

section
/-! Every step keeps the sampler, the receive machine and the Notice Queue legal, a held part at its
reset values, and the value that a sample may stamp. -/

namespace Sys2Proof.Machine

variable {s t u : State}

/-! ## The sampler (R87, R88) -/

/-- The laws of the sampler's own data. -/
structure Sampler.Legal (x : Sampler) : Prop where
  acquisition : 2 ≤ x.acquisition ∧ x.acquisition ≤ 255
  recovering : x.conv = .recovering → x.recoveryEnd.isSome
  windows : ∀ i : Fin 4, x.inputs[i].low ≤ x.inputs[i].high ∧ x.inputs[i].high ≤ 4095

theorem samplerLegal_iff : SamplerLegal s ↔ s.sampler.Legal :=
  ⟨fun h => ⟨h.acquisition, h.recovering, h.windows⟩, fun h => ⟨h.acquisition, h.recovering, h.windows⟩⟩

/-- A converter that is not RECOVERING needs no recovery end. -/
theorem Sampler.Legal.withConv {x : Sampler} (h : x.Legal) {c : Converter} (hc : c ≠ .recovering) :
    Sampler.Legal { x with conv := c } :=
  { h with recovering := fun e => absurd e hc }

theorem setInput_input (i j : Fin 4) (x : AnalogInput) (s : State) :
    (setInput i x s).sampler.inputs[j] = if j = i then x else s.sampler.inputs[j] := by
  by_cases h : j = i
  · subst h; simp [setInput]
  · have := Fin.val_ne_of_ne (Ne.symm h)
    simp [setInput, h, this]

theorem Sampler.Legal.setInput (h : s.sampler.Legal) {i : Fin 4} {x : AnalogInput}
    (hx : x.low ≤ x.high ∧ x.high ≤ 4095) : (setInput i x s).sampler.Legal where
  acquisition := h.acquisition
  recovering := h.recovering
  windows j := by
    rw [setInput_input]
    split
    · exact hx
    · exact h.windows j

theorem Sampler.Legal.sampleFiring (h : s.sampler.Legal) (i : Fin 4) (t : Time) (l : Option Label)
    (late : Bool) : (sampleFiring i t l late s).2.sampler.Legal := by
  unfold Machine.sampleFiring
  split
  · exact h
  · exact h.withConv (by simp)
  all_goals exact h.setInput (h.windows i)

theorem fireEffect_sampler (r : Record) (t : Time) (s : State) :
    (fireEffect r t s).2.sampler = s.sampler
    ∨ ∃ i, (fireEffect r t s).2.sampler = (sampleFiring i t r.body.label r.lateFlag s).2.sampler := by
  unfold fireEffect
  split
  case h_5 i _ => exact .inr ⟨i, rfl⟩
  all_goals exact .inl (by simp)

theorem Sampler.Legal.fireAll {t : Time} {rs : List Record} {vs : List TakenEvents}
    (h : s.sampler.Legal) : (fireAll t rs vs s).sampler.Legal := by
  induction rs generalizing s vs with
  | nil => exact h
  | cons r rs ih =>
    refine ih ?_
    rw [fireRecord_eq]
    simp only [takeBlockEvents_keeps, settleRecord_keeps, fireOffered_keeps]
    rcases fireEffect_sampler r t s with e | ⟨i, e⟩ <;> rw [e]
    · exact h
    · exact h.sampleFiring i t _ _

theorem Sampler.Legal.takePeriod (h : s.sampler.Legal) (vs : List TakenEvents) :
    (takePeriod vs s).sampler.Legal := by
  have ticked : ∀ {s : State}, s.sampler.Legal → (tick vs s).sampler.Legal := fun {s} h => by
    have fired : (Machine.fireAll (s.time.value + 1) (dueAt (s.time.value + 1) s) vs
        (tickBegun s)).sampler.Legal := Sampler.Legal.fireAll h
    rw [tick_eq]
    dsimp only
    split <;> exact fired
  unfold Machine.takePeriod
  split
  · exact h
  all_goals
    split
    · exact ticked h
    · exact h

theorem Sampler.Legal.takeResult (h : s.sampler.Legal) (ctx : ConvContext) (result : BitVec 12) :
    (takeResult ctx result s).sampler.Legal := by
  have placed : ∀ {w : State} z, w.sampler = s.sampler → (Machine.setInput ctx.input
      { s.sampler.inputs[ctx.input] with zone := z } w).sampler.Legal := fun z hw =>
    Sampler.Legal.setInput (hw ▸ h) (h.windows ctx.input)
  unfold Machine.takeResult
  dsimp only
  split
  · simp only [offerEvent_keeps]
    exact placed _ (by split <;> simp)
  · exact placed _ (by split <;> simp)

theorem Sampler.Legal.hostRule (h : s.sampler.Legal) (i : Instr) (c : QueuedCommand) :
    (hostRule i c s).sampler.Legal := by
  by_cases hi : Block.sampler ∉ touches i
  · rw [(hostRule_touchesOnly i c s).sampler hi]
    exact h
  · cases i <;> simp only [touches, List.mem_cons, List.not_mem_nil, reduceCtorEq, or_self, or_false,
      or_true, not_false_eq_true, not_true_eq_false] at hi
    case sampler enable acquisition _ =>
      show (samplerRule enable acquisition c s).sampler.Legal
      unfold samplerRule
      split
      · rename_i on n _ hn
        split
        · exact h
        · have range : 2 ≤ n ∧ n ≤ 255 := by
            unfold readRange at hn
            split at hn <;> cases hn
            assumption
          have base : Sampler.Legal { s.sampler with acquisition := n } := { h with acquisition := range }
          simp only [answer_keeps, switchSampler]
          split
          · unfold samplerOn
            split
            · refine { base with recovering := fun e => ?_ }
              simp only [startedConverter] at e
              split at e
              · rename_i m hm
                exact (congrArg Option.isSome hm).trans rfl
              · cases e
            all_goals exact base
          · exact { acquisition := range, recovering := (fun e => nomatch e), windows := h.windows }
      · exact h
    case window input low high queue _ =>
      show (windowRule input low high queue c s).sampler.Legal
      unfold windowRule
      split
      · exact h
      · rename_i j lo hi q hw
        have range : lo ≤ hi ∧ hi ≤ 4095 := by
          unfold readWindow at hw
          split at hw <;> cases hw
          rename_i hlo hhi _
          unfold readRange at hlo hhi
          split at hlo <;> cases hlo
          split at hhi <;> cases hhi
          assumption
        exact h.setInput range
    all_goals exact h

theorem Sampler.Legal.eventOf (h : s.sampler.Legal) {i : Instr} (hu : eventOf i s = some u) :
    u.sampler.Legal := by
  by_cases hi : Block.sampler ∉ touches i
  · rw [(eventOf_touchesOnly hu).sampler hi]
    exact h
  · cases i <;> simp only [touches, List.mem_cons, List.not_mem_nil, reduceCtorEq, or_self, or_false,
      or_true, not_false_eq_true, not_true_eq_false] at hi
    all_goals simp only [Machine.eventOf, reduceCtorEq] at hu
    case tickClockPeriod =>
      split at hu <;> cases hu
      refine Sampler.Legal.takePeriod ?_ _
      exact h
    case endOfAcquisition =>
      split at hu <;> cases hu
      exact h.withConv (by simp)
    case endOfConversion =>
      split at hu <;> cases hu
      refine Sampler.Legal.takeResult ?_ _ _
      exact h.withConv (by simp)
    case recoveryEnd =>
      obtain ⟨m, -, rfl⟩ := Option.map_eq_some_iff.1 hu
      split
      · exact h.withConv (by simp)
      all_goals exact h
    case resetApplies =>
      split at hu
      · cases hu
      · split at hu <;> cases hu
        have := samplerLegal_iff.1 reset_samplerLegal
        exact { this with recovering := fun e => nomatch e }

theorem SamplerLegal.step (h : step s = .next t) (hs : SamplerLegal s) : SamplerLegal t := by
  rw [samplerLegal_iff] at hs ⊢
  have steady : Steady fun s => s.sampler.Legal :=
    ⟨fun h => by simpa using h, fun _ h => by simpa using h, fun _ _ _ h => by simpa using h,
      fun _ h => h, fun _ h => h⟩
  refine steady.step h hs (fun i c _ _ h => h.hostRule i c) (fun _ _ _ h hu => h.eventOf hu)
    fun i s t hd hu h => ?_
  rcases deviceReset_next hd hu with rfl | ⟨-, -, e⟩ | ⟨-, hr, -⟩
  · exact h
  · rw [e]; exact h
  · rw [hr]
    have := samplerLegal_iff.1 reset_samplerLegal
    exact { this with recovering := fun e => nomatch e }

/-! ## The receive machine (R181 to R185) -/

/-- The laws of the receive machine's own data. -/
structure Receiver.Legal (r : Receiver) : Prop where
  length : r.length ≤ Config.maxPayload
  gap : r.gapExpiry = none ↔ r.state = .hunt
  early : r.state ∈ [.hunt, .len, .tag, .kind] → r.payload = []
  body : r.state = .body → r.payload.length < r.length
  whole : r.state ∈ [.crcHi, .crcLo] → r.payload.length = r.length
  check : r.state ≠ .hunt → r.check = crcOf r.covered

theorem receiverLegal_iff : ReceiverLegal s ↔ s.rx.Legal :=
  ⟨fun h => ⟨h.length, h.gap, h.early, h.body, h.whole, h.check⟩,
    fun h => ⟨h.length, h.gap, h.early, h.body, h.whole, h.check⟩⟩

/-- In HUNT the machine holds no frame, whatever its counts and its wait. -/
theorem Receiver.hunting_legal (r : Receiver) : r.hunting.Legal := by
  constructor <;> simp [Receiver.hunting, Receiver.reset]

theorem Receiver.Legal.linkError (k : LinkErrorKind) (s : State) : (linkError k s).rx.Legal :=
  Receiver.hunting_legal _

theorem sortFrame_rx_legal (tag kind : Byte) (p : Payload) {s : State} (h : s.rx.Legal) :
    (sortFrame tag kind p s).rx.Legal := by simpa using h

theorem Receiver.Legal.takeByte (h : s.rx.Legal) (b : Byte) : (takeByte b s).rx.Legal := by
  unfold Machine.takeByte
  dsimp only
  split
  case h_1 hst =>
    split
    · constructor <;>
        simp [Receiver.hunting, Receiver.reset, Receiver.heard, Receiver.covered, crcOf]
    · exact h
  case h_2 hst =>
    split
    · exact .linkError ..
    · rename_i hb
      have hcheck := h.check (by simp [hst])
      have hearly := h.early (by simp [hst])
      constructor <;> simp [Receiver.heard, Receiver.covered, hearly]
      · exact Nat.le_of_not_lt hb
      · rw [hcheck, Receiver.covered, hst]
        simp [crcOf]
  case h_3 hst =>
    have hcheck := h.check (by simp [hst])
    have hearly := h.early (by simp [hst])
    constructor <;> simp [Receiver.heard, Receiver.covered, hearly]
    · exact h.length
    · rw [hcheck, Receiver.covered, hst]
      simp [crcOf]
  case h_4 hst =>
    have hcheck := h.check (by simp [hst])
    have hearly := h.early (by simp [hst])
    by_cases hl : s.rx.length = 0
    · constructor <;> simp [Receiver.heard, Receiver.covered, hearly, hl, Config.maxPayload]
      rw [hcheck, Receiver.covered, hst]
      simp [crcOf, hl]
    · constructor <;> simp [Receiver.heard, Receiver.covered, hearly, hl]
      · exact h.length
      · exact Nat.pos_of_ne_zero hl
      · rw [hcheck, Receiver.covered, hst]
        simp [crcOf]
  case h_5 hst =>
    have hcheck := h.check (by simp [hst])
    have hbody := h.body hst
    by_cases hl : s.rx.payload.length + 1 < s.rx.length
    · constructor <;> simp [Receiver.heard, Receiver.covered, hl]
      · exact h.length
      · rw [hcheck, Receiver.covered, hst]
        simp [crcOf]
    · constructor <;> simp [Receiver.heard, Receiver.covered, hl]
      · exact h.length
      · omega
      · rw [hcheck, Receiver.covered, hst]
        simp [crcOf]
  case h_6 hst =>
    have hcheck := h.check (by simp [hst])
    have hwhole := h.whole (by simp [hst])
    constructor <;> simp [Receiver.heard, Receiver.covered]
    · exact h.length
    · exact hwhole
    · rw [hcheck, Receiver.covered, hst]
      simp
  case h_7 =>
    split
    · exact sortFrame_rx_legal _ _ _ (Receiver.hunting_legal _)
    · exact .linkError ..

theorem Receiver.Legal.stopBit (h : s.rx.Legal) (v : Level) : (stopBit v s).rx.Legal := { h with }

theorem Receiver.Legal.takeChar (h : s.rx.Legal) (c : RxChar) : (takeChar c s).rx.Legal := by
  unfold Machine.takeChar
  split
  · exact (h.stopBit _).takeByte _
  · split
    · exact h.stopBit _
    · exact h

theorem Receiver.Legal.eventOf (h : s.rx.Legal) {i : Instr} (hu : eventOf i s = some u) :
    u.rx.Legal := by
  by_cases hi : Block.rx ∉ touches i
  · rw [(eventOf_touchesOnly hu).rx hi]
    exact h
  · cases i <;> simp only [touches, List.mem_cons, List.not_mem_nil, reduceCtorEq, or_self, or_false,
      or_true, not_false_eq_true, not_true_eq_false] at hi
    all_goals simp only [Machine.eventOf, reduceCtorEq] at hu
    case frameReceived | lengthError =>
      split at hu <;> cases hu
      exact h.takeChar _
    case gapExpiry =>
      split at hu
      · cases hu
      · split at hu <;> cases hu
        exact .linkError ..
    case byteTaken =>
      cases hu
      exact h.takeChar _
    case resetApplies =>
      split at hu
      · cases hu
      · split at hu <;> cases hu
        exact { h with }

theorem ReceiverLegal.step (h : step s = .next t) (hs : ReceiverLegal s) : ReceiverLegal t := by
  rw [receiverLegal_iff] at hs ⊢
  have steady : Steady fun s => s.rx.Legal :=
    ⟨fun h => by simpa using h, fun _ h => by simpa using h, fun _ _ _ h => by simpa using h,
      fun _ h => h, fun _ h => h⟩
  refine steady.step h hs (fun i c s _ h => ?_) (fun _ _ _ h hu => h.eventOf hu)
    fun i s t hd hu h => ?_
  · by_cases hi : Block.rx ∉ touches i
    · rw [(hostRule_touchesOnly i c s).rx hi]
      exact h
    · cases i <;> simp only [touches, List.mem_cons, List.not_mem_nil, reduceCtorEq, or_self, or_false,
        or_true, not_false_eq_true, not_true_eq_false] at hi
      all_goals exact h
  · rcases deviceReset_next hd hu with rfl | ⟨-, -, e⟩ | ⟨hr, -⟩
    · exact h
    · rw [e]; exact h
    · rw [hr.rx]
      exact receiverLegal_iff.1 reset_receiverLegal

end Sys2Proof.Machine
end

section
/-! Every step keeps the Notice Queue within its capacity, a held part at its reset values, and the value
that a sample may stamp (R68, R146, R176). -/

namespace Sys2Proof.Machine

variable {s t u : State}

/-! ## The Notice Queue (R146) -/

/-- The Notice Queue has room for what stands in it. -/
def NoticesFit (s : State) : Prop := s.notices.queue.length ≤ 32

theorem NoticesFit.congr (h : NoticesFit s) (hn : u.notices = s.notices) : NoticesFit u := by
  unfold NoticesFit at h ⊢
  rwa [hn]

theorem NoticesFit.admitNotice (h : NoticesFit s) (o : NoticeOffer) : NoticesFit (admitNotice o s) := by
  unfold Machine.admitNotice
  dsimp only
  split
  · rename_i hroom
    simpa [NoticesFit, Config.noticeCapacity] using hroom
  · exact h

theorem NoticesFit.admitAll (h : NoticesFit s) (l : List NoticeOffer) : NoticesFit (admitAll l s) := by
  induction l generalizing s with
  | nil => exact h
  | cons o l ih => exact ih (h.admitNotice o)

/-- A boundary takes at most the oldest notice off its queue (R153). -/
theorem boundary_notices (s : State) : (boundary s).notices = s.notices
    ∨ (boundary s).notices = { s.notices with queue := s.notices.queue.tail } := by
  have asked : (askNoticeOrReport s).notices = s.notices
      ∨ (askNoticeOrReport s).notices = { s.notices with queue := s.notices.queue.tail } := by
    unfold askNoticeOrReport
    split
    · rename_i hq
      exact .inr (by simp [hq])
    · refine .inl ?_
      repeat' split
      all_goals simp
  unfold boundary
  repeat' split
  all_goals simp [asked]

theorem NoticesFit.boundary (h : NoticesFit s) : NoticesFit (boundary s) := by
  unfold NoticesFit at h ⊢
  rcases boundary_notices s with e | e <;> rw [e]
  · exact h
  · exact (List.length_tail ▸ Nat.sub_le ..).trans h

theorem NoticesFit.takeEndClaim (h : NoticesFit s) (c : EndClaim) : NoticesFit (takeEndClaim c s) := by
  cases c with
  | offer b =>
    show NoticesFit (takeNextOffer b s)
    unfold takeNextOffer
    split
    · exact h
    · refine NoticesFit.admitNotice ?_ _
      exact h.congr rfl
  | offers =>
    refine NoticesFit.admitAll (s := s.withOffered []) ?_ _
    exact h.congr rfl
  | removal => exact h.congr (by simp [Machine.takeEndClaim])
  | removals => exact h.congr (by simp [Machine.takeEndClaim])
  | boundary =>
    show NoticesFit (answerTelling s)
    unfold answerTelling
    split
    · exact NoticesFit.boundary (h.congr rfl)
    · exact h

theorem NoticesFit.takeEndClaims (h : NoticesFit s) (l : List EndClaim) :
    NoticesFit (takeEndClaims l s) := by
  induction l generalizing s with
  | nil => exact h
  | cons c l ih => exact ih (h.takeEndClaim c)

theorem noticesFit_steady : Steady NoticesFit where
  settle {u} h := by
    have ended := NoticesFit.takeEndClaims (s := u.withEndings u.endings.tail) (h.congr rfl)
      (u.endings.headD usualEnding)
    exact ended.congr (by simp [Machine.settle])
  goOn _ h := h.congr (by simp)
  answer _ _ _ h := h.congr (by simp)
  pending _ h := h.congr rfl
  now _ h := h.congr rfl

theorem hostRule_notices (i : Instr) (c : QueuedCommand) (s : State) :
    (hostRule i c s).notices = s.notices := by
  cases i
  all_goals
    simp only [hostRule,
      clockRule, setTimeRule, startRule, stopRule, gateRule, scheduleRule, cancelRule,
      cancelLineRule, resetRule, awaitRule, lineRule, driveRule, channelRule,
      channelOffRule, channelStatusRule, samplerRule, windowRule, triggerRule,
      triggerArmRule, triggerClearRule, triggerStatusRule, streamRule, readRule, releaseRule]
    repeat' split
  all_goals simp

/-- Within a step's own claims the Notice Queue changes only at a boundary and at a soft reset. -/
theorem eventOf_notices {i : Instr} (hu : eventOf i s = some u) : u.notices = s.notices
    ∨ (∃ w, w.notices = s.notices ∧ u = boundary w) ∨ u.notices.queue.length ≤ 1 := by
  cases i
  case resetApplies =>
    simp only [eventOf] at hu
    split at hu
    · cases hu
    · split at hu <;> cases hu
      exact .inr (.inr (Nat.le_refl 1))
  case endOfTransmission | postResetIdleEnd =>
    simp only [eventOf] at hu
    split at hu <;> cases hu
    exact .inr (.inl ⟨_, by simp, rfl⟩)
  case stampOffer | recoveryEnd | retransmitExpiry | awaitTimeout =>
    obtain ⟨_, -, rfl⟩ := Option.map_eq_some_iff.1 hu
    refine .inl ?_
    dsimp only
    repeat' split
    all_goals simp
  case channelSample | triggerSourceEvent =>
    simp only [eventOf] at hu
    split at hu
    · cases hu
    · obtain ⟨_, -, rfl⟩ := Option.map_eq_some_iff.1 hu
      exact .inl (by simp)
  all_goals
    simp only [eventOf] at hu
    repeat' split at hu
  all_goals cases hu
  all_goals exact .inl (by simp)

theorem NoticesFit.step (h : step s = .next t) (hs : NoticesFit s) : NoticesFit t := by
  refine noticesFit_steady.step h hs (fun i c s _ h => h.congr (hostRule_notices i c s))
    (fun i s u h hu => ?_) fun i s t hd hu h => ?_
  · rcases eventOf_notices hu with e | ⟨w, hw, rfl⟩ | hlen
    · exact h.congr e
    · exact (h.congr hw).boundary
    · exact hlen.trans (by decide)
  · rcases deviceReset_next hd hu with rfl | ⟨-, -, e⟩ | ⟨-, -, hr⟩
    · exact h
    · rw [e]; exact (by decide : 1 ≤ 32)
    · exact hr.trans (by decide)

/-! ## The RESET pin (R176) -/

/-- No command holds or releases the RESET pin. -/
theorem hostRule_resetActive (i : Instr) (c : QueuedCommand) (s : State) :
    (hostRule i c s).pins.resetActive = s.pins.resetActive := by
  by_cases hi : Block.pins ∉ touches i
  · rw [(hostRule_touchesOnly i c s).pins hi]
  · cases i <;> simp only [touches, List.mem_cons, List.not_mem_nil, reduceCtorEq, or_self, or_false,
      or_true, not_false_eq_true, not_true_eq_false] at hi
    all_goals
      simp only [hostRule, startRule, gateRule, channelRule]
      repeat' split
    all_goals simp [started, gateSet, readGate, readInput]

/-- No event but a device reset holds or releases the RESET pin. -/
theorem eventOf_resetActive {i : Instr} (hu : eventOf i s = some u) :
    u.pins.resetActive = s.pins.resetActive := by
  by_cases hi : Block.pins ∉ touches i
  · rw [(eventOf_touchesOnly hu).pins hi]
  · cases i <;> simp only [touches, List.mem_cons, List.not_mem_nil, reduceCtorEq, or_self, or_false,
      or_true, not_false_eq_true, not_true_eq_false] at hi
    all_goals simp only [eventOf, reduceCtorEq] at hu
    case channelSample =>
      split at hu
      · cases hu
      · obtain ⟨_, -, rfl⟩ := Option.map_eq_some_iff.1 hu
        simp [readInput]
    case tickClockPeriod =>
      split at hu <;> cases hu
      simp [readGate]
    case endOfAcquisition =>
      split at hu <;> cases hu
      rfl
    case resetApplies =>
      split at hu
      · cases hu
      · split at hu <;> cases hu
        rfl

/-- What a held part may differ in from the reset state (R176). -/
theorem HeldAtReset.of_up (h : s.pins.resetActive = false) : HeldAtReset s :=
  fun hu => absurd (h.symm.trans hu) (by simp)

theorem HeldAtReset.exec {i : Instr} (h : exec i s = .next t) (hs : HeldAtReset s) :
    HeldAtReset t := by
  rcases exec_next h with rfl | ⟨hup, -, u, hu, rfl⟩ | ⟨hup, u, hu, rfl⟩ | hd
  · exact hs
  · refine .of_up ?_
    rw [(settle_keeps u).2.2.2.2.2.2.2.2.1]
    cases hu with
    | fills => simpa using hup
    | refuses => simpa using hup
    | follows => simpa [hostRule_resetActive] using hup
  · exact .of_up (by simpa [eventOf_resetActive hu] using hup)
  · cases i <;> simp only [isDeviceReset, reduceCtorEq] at hd
    case powerOn =>
      cases h
      exact .of_up rfl
    case resetPin =>
      cases h
      exact fun _ => rfl
    case resetPinRelease =>
      simp only [Machine.exec, execResetPinRelease, noStep] at h
      split at h <;> cases h
      · exact .of_up rfl
      · exact hs

theorem HeldAtReset.withPending (h : HeldAtReset s) (l : List Instr) :
    HeldAtReset (s.withPending l) := fun hu => congrArg (State.withPending · l) (h hu)

theorem HeldAtReset.step (h : step s = .next t) (hs : HeldAtReset s) : HeldAtReset t := by
  unfold Machine.step at h
  split at h
  · simp only [passTime, finish] at h
    split at h <;> cases h
    · exact fun hu => congrArg (State.withNow · (s.now + 1)) (hs hu)
    · rename_i hup
      exact .of_up (by simpa using hup)
  · exact (hs.withPending _).exec h

/-! ## The value that a sample may stamp (R68) -/

/-- A command sets the timebase value only where no sample holds it. -/
theorem hostRule_value {i : Instr} (ready : hostReady i s = true) (hold : sampleHoldsValue s = true)
    (c : QueuedCommand) : (hostRule i c s).time.value = s.time.value := by
  by_cases hi : Block.time ∉ touches i
  · rw [(hostRule_touchesOnly i c s).time hi]
  · cases i <;> simp only [touches, List.mem_cons, List.not_mem_nil, reduceCtorEq, or_self, or_false,
      not_false_eq_true, not_true_eq_false] at hi
    case setTime value _ =>
      simp only [hostReady, hold, Bool.not_true, Bool.or_false, decide_eq_true_eq] at ready
      show (setTimeRule value c s).time.value = s.time.value
      unfold setTimeRule
      split
      · simp
      · rename_i hmax
        rw [if_pos (ready.resolve_left hmax)]
        simp
    all_goals
      simp only [hostRule, clockRule, startRule, stopRule, gateRule]
      repeat' split
    all_goals simp [started, gateSet]

/-- A period leaves the value, or it is a tick to the next one (R3). -/
theorem takePeriod_value (vs : List TakenEvents) (s : State) :
    (takePeriod vs s).time.value = s.time.value
    ∨ (takePeriod vs s).time.ticked = true ∧ (takePeriod vs s).time.value = s.time.value + 1 := by
  have ticked : ∀ s : State, (tick vs s).time.ticked = s.time.ticked
      ∧ (tick vs s).time.value = s.time.value + 1 := fun s => by
    rw [tick_eq]
    dsimp only
    split <;> simp [tickBegun]
  unfold takePeriod
  split
  · exact .inl rfl
  all_goals
    split
    · exact .inr ⟨(ticked _).1, (ticked _).2⟩
    · exact .inl rfl

/-- An event but the period's own and a soft reset leaves the value; with no sample due the period makes
it at most the next one, the samples taken ahead being those of that period. -/
theorem eventOf_value {i : Instr} (hu : eventOf i s = some u) : u.time.value = s.time.value
    ∨ u.channels = State.reset.channels
    ∨ (∀ n : Fin 8, s.channels[n].sampling ≠ .due)
      ∧ (∀ n : Fin 8, s.channels[n].sampling = .ahead → u.channels[n].sampling = .inStep)
      ∧ u.time.ticked = true ∧ u.time.value = s.time.value + 1 := by
  by_cases hi : Block.time ∉ touches i
  · exact .inl (by rw [(eventOf_touchesOnly hu).time hi])
  · cases i <;> simp only [touches, List.mem_cons, List.not_mem_nil, reduceCtorEq, or_self, or_false,
      not_false_eq_true, not_true_eq_false] at hi
    all_goals simp only [eventOf, reduceCtorEq] at hu
    case sourcePeriod =>
      split at hu <;> cases hu
      exact .inl rfl
    case tickClockPeriod vs =>
      split at hu <;> cases hu
      rename_i hdue
      rcases takePeriod_value vs (readGate ‹Level› ((s.withChannels
        (mapAll Channel.atPeriod s.channels)).withTime { s.time with count := 0 })) with hv | ⟨ht, hv⟩
      · exact .inl (hv.trans (by simp))
      · refine .inr (.inr ⟨fun n hn => ?_, fun n hn => ?_, ht, hv.trans (by simp)⟩)
        · have due : samplesDue s = true := by
            simp only [samplesDue, List.any_eq_true]
            exact ⟨s.channels[n], by simp, by simpa using hn⟩
          simp [due] at hdue
        · simp only [takePeriod_keeps, readGate_keeps, withTime_channels, withChannels_channels,
            mapAll_getElem, Channel.atPeriod]
          rw [if_pos (.inl hn)]
    case resetApplies =>
      split at hu
      · cases hu
      · split at hu <;> cases hu
        exact .inr (.inl rfl)

/-- While a sample holds the value a step leaves it, or is the tick of the sample's own period, or resets
the channels. -/
theorem exec_value {i : Instr} (h : exec i s = .next t) {n : Fin 8}
    (hn : s.channels[n].sampling = .ahead ∨ s.channels[n].sampling = .due ∧ s.time.ticked = true) :
    t.channels[n] = State.reset.channels[n] ∨ t.time.value = s.time.value
    ∨ s.channels[n].sampling = .ahead ∧ t.channels[n].sampling = .inStep ∧ t.time.ticked = true
      ∧ t.time.value = s.time.value + 1 := by
  have hold : sampleHoldsValue s = true := (sampleHoldsValue_iff s).2 ⟨n, hn⟩
  rcases exec_next h with rfl | ⟨-, -, u, hu, rfl⟩ | ⟨-, u, hu, rfl⟩ | hd
  · exact .inr (.inl rfl)
  · refine .inr (.inl ?_)
    rw [(settle_keeps u).1]
    cases hu with
    | fills => simp
    | refuses => simp
    | follows _ _ _ _ _ ready => simp [hostRule_value ready hold]
  · rw [(settle_keeps u).1, (settle_keeps u).2.2.2.1]
    rcases eventOf_value hu with hv | hc | ⟨hdue, hahead, htick, hv⟩
    · exact .inr (.inl hv)
    · exact .inl (by rw [hc])
    · have ahead := hn.resolve_right fun e => hdue n e.1
      exact .inr (.inr ⟨ahead, hahead n ahead, htick, hv⟩)
  · rcases deviceReset_next hd h with rfl | ⟨-, -, e⟩ | ⟨hr, -⟩
    · exact .inr (.inl rfl)
    · rw [e]; exact .inr (.inl rfl)
    · exact .inl (by rw [hr.channels])

/-- Settles O57: each block's law through what its commands and events do to that block, the RESET pin's
through the one event that holds it, and the value's through the commands and events that set it. -/
theorem everyStepKeepsTheInputSideLegal : Obligations.EveryStepKeepsTheInputSideLegal := by
  intro s t h
  refine ⟨ChannelsLegal.step h, SamplerLegal.step h, ReceiverLegal.step h, NoticesFit.step h,
    HeldAtReset.step h, fun n hn => ?_⟩
  unfold step at h
  split at h
  · simp only [passTime, finish] at h
    split at h <;> cases h <;> exact .inr (.inl (by simp))
  · exact exec_value (s := s.withPending _) h hn

end Sys2Proof.Machine
end

section
/-! Every step keeps the Stamp Queue and the report stream legal (R121, R122, R126, R133, R134, R137). -/

namespace Sys2Proof.Machine

variable {s t u : State}

/-! ## The entries: the window's, and then the waiting ones -/

/-- An entry's state and content. -/
def StampEntry.pair (e : StampEntry) : EntryState × StampContent := (e.state, e.content)

/-- The queue is the window's entries, in its order, and then WAITING ones. -/
def Carries (entries : List StampEntry) (window : List Report) : Prop :=
  ∃ carried waiting, entries = carried ++ waiting ∧ carried.map StampEntry.pair = carriedEntries window
    ∧ ∀ e ∈ waiting, e.state = .waiting

theorem carries_iff {entries : List StampEntry} {window : List Report} : Carries entries window ↔
    ∃ waiting : List StampEntry, (∀ e ∈ waiting, e.state = .waiting)
      ∧ entries.map StampEntry.pair = carriedEntries window ++ waiting.map StampEntry.pair := by
  constructor
  · rintro ⟨carried, waiting, rfl, hc, hw⟩
    exact ⟨waiting, hw, by simp [hc]⟩
  · rintro ⟨waiting, hw, hm⟩
    obtain ⟨carried, rest, rfl, hc, hr⟩ := List.map_eq_append_iff.1 hm
    refine ⟨carried, rest, rfl, hc, fun e he => ?_⟩
    have : e.pair ∈ waiting.map StampEntry.pair := hr ▸ List.mem_map_of_mem he
    obtain ⟨e', he', hp⟩ := List.mem_map.1 this
    exact (congrArg Prod.fst hp).symm.trans (hw e' he')

theorem StreamLegal.carries (h : StreamLegal s) : Carries s.stamps.entries s.stream.window :=
  carries_iff.2 h.entries

/-- No entry of the window is WAITING. -/
theorem state_of_carried {carried : List StampEntry} {window : List Report}
    (h : carried.map StampEntry.pair = carriedEntries window) {e : StampEntry} (he : e ∈ carried) :
    ∃ r ∈ window, e.state = .inFlight r.sequence := by
  have : e.pair ∈ carriedEntries window := h ▸ List.mem_map_of_mem he
  simp only [carriedEntries, List.mem_flatMap, List.mem_map] at this
  obtain ⟨r, hr, c, -, hp⟩ := this
  exact ⟨r, hr, (congrArg Prod.fst hp).symm⟩

theorem isWaiting_iff {e : StampEntry} : e.isWaiting = true ↔ e.state = .waiting := by
  simp [StampEntry.isWaiting]

theorem carried_not_waiting {carried : List StampEntry} {window : List Report}
    (h : carried.map StampEntry.pair = carriedEntries window) {e : StampEntry} (he : e ∈ carried) :
    e.isWaiting = false := by
  obtain ⟨r, -, hr⟩ := state_of_carried h he
  simp [StampEntry.isWaiting, hr]

theorem filter_waiting {carried waiting : List StampEntry} {window : List Report}
    (h : carried.map StampEntry.pair = carriedEntries window)
    (hw : ∀ e ∈ waiting, e.state = .waiting) :
    (carried ++ waiting).filter StampEntry.isWaiting = waiting := by
  rw [List.filter_append, List.filter_eq_nil_iff.2 fun e he => by simp [carried_not_waiting h he],
    List.filter_eq_self.2 fun e he => isWaiting_iff.2 (hw e he)]
  rfl

/-- With no window every entry is WAITING. -/
theorem Carries.all_waiting {entries : List StampEntry} (h : Carries entries []) :
    ∀ e ∈ entries, e.state = .waiting := by
  obtain ⟨carried, waiting, rfl, hc, hw⟩ := h
  obtain rfl : carried = [] := by simpa [carriedEntries] using hc
  exact hw

theorem carries_nil {entries : List StampEntry} (h : ∀ e ∈ entries, e.state = .waiting) :
    Carries entries [] := ⟨[], entries, rfl, rfl, h⟩

theorem Carries.append {entries : List StampEntry} {window : List Report} (h : Carries entries window)
    {e : StampEntry} (he : e.state = .waiting) : Carries (entries ++ [e]) window := by
  obtain ⟨carried, waiting, rfl, hc, hw⟩ := h
  refine ⟨carried, waiting ++ [e], List.append_assoc .., hc, fun x hx => ?_⟩
  rcases List.mem_append.1 hx with hx | hx
  · exact hw x hx
  · exact List.mem_singleton.1 hx ▸ he

/-- The oldest WAITING entries go IN_FLIGHT, behind the window's (R133 step 3). -/
theorem markInFlight_append (q : Byte) (n : Nat) {a : List StampEntry}
    (ha : ∀ e ∈ a, e.isWaiting = false) {b : List StampEntry} (hb : ∀ e ∈ b, e.isWaiting = true) :
    markInFlight q n (a ++ b)
      = a ++ ((b.take n).map (fun e => { e with state := .inFlight q }) ++ b.drop n) := by
  induction a with
  | nil =>
    simp only [List.nil_append]
    induction b generalizing n with
    | nil => cases n <;> rfl
    | cons e b ih =>
      cases n with
      | zero => rfl
      | succ n =>
        have rest := ih n fun x hx => hb x (List.mem_cons_of_mem _ hx)
        simp only [markInFlight, if_pos (hb e List.mem_cons_self), rest, List.take_succ_cons,
          List.map_cons, List.drop_succ_cons, List.cons_append]
  | cons e a ih =>
    cases n with
    | zero => simp [markInFlight]
    | succ n =>
      simp [markInFlight, ha e (by simp), ih (fun x hx => ha x (by simp [hx]))]

/-! ## The window -/

/-- The reports without their marks. -/
def unmarked (window : List Report) : List (Byte × List StampContent) :=
  window.map fun r => (r.sequence, r.contents)

theorem carriedEntries_eq (window : List Report) : carriedEntries window
    = (unmarked window).flatMap fun p => p.2.map fun c => (EntryState.inFlight p.1, c) := by
  simp [carriedEntries, unmarked, List.flatMap_map]

theorem Consecutive.of_unmarked {w w' : List Report} (h : unmarked w' = unmarked w) {q : Byte}
    (hc : Consecutive w q) : Consecutive w' q := by
  induction w generalizing w' with
  | nil =>
    obtain rfl : w' = [] := by simpa [unmarked] using h
    exact hc
  | cons r w ih =>
    cases w' with
    | nil => cases h
    | cons r' w' =>
      simp only [unmarked, List.map_cons, List.cons.injEq, Prod.mk.injEq] at h
      obtain ⟨⟨hr, -⟩, hw⟩ := h
      cases w with
      | nil =>
        obtain rfl : w' = [] := by simpa using hw
        exact (congrArg nextSequenceAfter hr).trans hc
      | cons x w =>
        cases w' with
        | nil => cases hw
        | cons x' w' =>
          have hx : x'.sequence = x.sequence := congrArg Prod.fst (List.cons.inj hw).1
          exact ⟨by rw [hr, hx]; exact hc.1, ih hw hc.2⟩

theorem Consecutive.append {w : List Report} {r : Report} (h : Consecutive w r.sequence) :
    Consecutive (w ++ [r]) (nextSequenceAfter r.sequence) := by
  induction w with
  | nil => rfl
  | cons x w ih =>
    cases w with
    | nil => exact ⟨h, rfl⟩
    | cons y w => exact ⟨h.1, ih h.2⟩

theorem nextSequenceAfter_ne_zero (q : Byte) : nextSequenceAfter q ≠ 0 := by
  unfold nextSequenceAfter
  split
  · decide
  · bv_omega

theorem clearFirstMark_unmarked (w : List Report) : unmarked (clearFirstMark w) = unmarked w := by
  induction w with
  | nil => rfl
  | cons r w ih =>
    unfold clearFirstMark
    split
    · rfl
    · simpa [unmarked] using ih

/-- The numbers one to three places on are others. -/
theorem nextSequenceAfter_ne (q : Byte) : nextSequenceAfter q ≠ q
    ∧ nextSequenceAfter (nextSequenceAfter q) ≠ q
    ∧ nextSequenceAfter (nextSequenceAfter (nextSequenceAfter q)) ≠ q := by
  unfold nextSequenceAfter
  split_ifs <;> bv_omega

/-- The numbers of up to four consecutive reports are distinct. -/
theorem Consecutive.distinct {w : List Report} {q : Byte} (h : Consecutive w q)
    (hw : w.length ≤ Config.windowCapacity) :
    w.Pairwise (fun a b => a.sequence ≠ b.sequence) := by
  match w with
  | [] => exact .nil
  | [a] => exact List.pairwise_singleton ..
  | [a, b] =>
    obtain ⟨hab, -⟩ := h
    have ha := nextSequenceAfter_ne a.sequence
    simp [← hab, ha.1.symm]
  | [a, b, c] =>
    obtain ⟨hab, hbc, -⟩ := h
    have ha := nextSequenceAfter_ne a.sequence
    have hb := nextSequenceAfter_ne b.sequence
    simp [← hbc, hb.1.symm]
    simp [← hab, ha.1.symm, ha.2.1.symm]
  | [a, b, c, d] =>
    obtain ⟨hab, hbc, hcd, -⟩ := h
    have ha := nextSequenceAfter_ne a.sequence
    have hb := nextSequenceAfter_ne b.sequence
    have hc := nextSequenceAfter_ne c.sequence
    simp [← hcd, hc.1.symm]
    simp [← hbc, hb.1.symm, hb.2.1.symm]
    simp [← hab, ha.1.symm, ha.2.1.symm, ha.2.2.symm]
  | _ :: _ :: _ :: _ :: _ :: _ => 
    simp only [List.length_cons, Config.windowCapacity] at hw
    omega

/-! ## The laws, on the blocks' own data -/

/-- The configuration is in range (R126). -/
def ReportStream.InRange (st : ReportStream) : Prop :=
  (1 ≤ st.batch ∧ st.batch ≤ 8) ∧ st.hold ≤ 250 ∧ (10 ≤ st.interval ∧ st.interval ≤ 1000)
    ∧ 1 ≤ st.retryLimit ∧ st.retryLimit ≤ 15

/-- The laws of the stamp entries and the report stream. -/
structure StreamParts (entries : List StampEntry) (st : ReportStream) : Prop where
  capacity : entries.length ≤ Config.stampCapacity
  carries : Carries entries st.window
  window : st.window.length ≤ Config.windowCapacity
  numbered : Consecutive st.window st.nextSequence
  next : st.nextSequence ≠ 0
  nonzero : ∀ r ∈ st.window, r.sequence ≠ 0
  sizes : ∀ r ∈ st.window, 1 ≤ r.contents.length ∧ r.contents.length ≤ st.batch
  on : st.state ≠ .on → st.window = [] ∧ st.retryCount = 0
  timer : st.window = [] → st.timer = none
  range : st.InRange
  retry : st.retryCount ≤ st.retryLimit

theorem streamLegal_iff : StreamLegal s ↔ StreamParts s.stamps.entries s.stream :=
  ⟨fun h => ⟨h.capacity, carries_iff.2 h.entries, h.window, h.numbered, h.nonzero.1, h.nonzero.2,
      h.sizes, h.on, h.timer, ⟨h.batch, h.hold, h.interval, h.retry.1, h.retry.2.1⟩, h.retry.2.2⟩,
    fun h => by
      obtain ⟨hbatch, hhold, hinterval, hlow, hhigh⟩ := h.range
      exact ⟨h.capacity, carries_iff.1 h.carries, h.window, h.numbered, ⟨h.next, h.nonzero⟩, h.sizes,
        h.on, h.timer, hbatch, hhold, hinterval, ⟨hlow, hhigh, h.retry⟩⟩⟩

theorem StreamLegal.congr (h : StreamLegal s) (hq : u.stamps.entries = s.stamps.entries)
    (hs : u.stream = s.stream) : StreamLegal u := by
  rw [streamLegal_iff] at h ⊢
  rwa [hq, hs]

theorem StreamLegal.tellIfEligible (h : StreamLegal s) : StreamLegal (tellIfEligible s) :=
  h.congr (by simp) (by simp)

variable {es : List StampEntry} {st : ReportStream}

/-- The reports marked otherwise. -/
theorem StreamParts.remark (h : StreamParts es st) {w : List Report}
    (hw : unmarked w = unmarked st.window) : StreamParts es { st with window := w } := by
  have len : w.length = st.window.length := by
    simpa [unmarked] using congrArg List.length hw
  have mem : ∀ r ∈ w, ∃ r' ∈ st.window, r'.sequence = r.sequence ∧ r'.contents = r.contents := by
    intro r hr
    have : (r.sequence, r.contents) ∈ unmarked st.window := hw ▸ List.mem_map_of_mem hr
    obtain ⟨r', hr', hp⟩ := List.mem_map.1 this
    exact ⟨r', hr', congrArg Prod.fst hp, congrArg Prod.snd hp⟩
  have empty : w = [] ↔ st.window = [] := by
    rw [← List.length_eq_zero_iff, len, List.length_eq_zero_iff]
  refine { h with
    carries := ?_, window := len ▸ h.window, numbered := h.numbered.of_unmarked hw
    nonzero := fun r hr => ?_, sizes := fun r hr => ?_
    on := fun ho => ⟨empty.2 (h.on ho).1, (h.on ho).2⟩, timer := fun he => h.timer (empty.1 he) }
  · obtain ⟨carried, waiting, he, hc, hwait⟩ := h.carries
    exact ⟨carried, waiting, he, by rw [hc, carriedEntries_eq, carriedEntries_eq, hw], hwait⟩
  · obtain ⟨r', hr', hs, -⟩ := mem r hr
    exact hs ▸ h.nonzero r' hr'
  · obtain ⟨r', hr', -, hc⟩ := mem r hr
    exact hc ▸ h.sizes r' hr'

/-- A stream without a window, its entries all WAITING, in any state. -/
theorem StreamParts.emptied (h : StreamParts es st) {es' : List StampEntry}
    (hl : es'.length ≤ es.length) (hw : ∀ e ∈ es', e.state = .waiting) (entered : StreamState) :
    StreamParts es' { st with state := entered, window := [], timer := none, retryCount := 0 } where
  capacity := hl.trans h.capacity
  carries := carries_nil hw
  window := Nat.zero_le _
  numbered := trivial
  next := h.next
  nonzero _ hr := nomatch hr
  sizes _ hr := nomatch hr
  on _ := ⟨rfl, rfl⟩
  timer _ := rfl
  range := h.range
  retry := Nat.zero_le _

/-- Another timer, none where the window is empty. -/
theorem StreamParts.withTimer (h : StreamParts es st) {m : Option Moment}
    (hm : st.window = [] → m = none) : StreamParts es { st with timer := m } :=
  { h with timer := hm }

/-- The entries of a stream without a window are all WAITING. -/
theorem StreamParts.all_waiting (h : StreamParts es st) (hw : st.window = []) :
    ∀ e ∈ es, e.state = .waiting := by
  have := h.carries
  rw [hw] at this
  exact this.all_waiting

/-! ## Forming a report (R133) -/

theorem StreamParts.form (h : StreamParts s.stamps.entries s.stream)
    (he : eligible s = true) : StreamLegal (formReport s) := by
  rw [streamLegal_iff]
  obtain ⟨carried, waiting, hes, hc, hw⟩ := h.carries
  have waits : waitingEntries s = waiting := by rw [waitingEntries, hes, filter_waiting hc hw]
  simp only [eligible, Bool.and_eq_true, decide_eq_true_eq] at he
  obtain ⟨⟨hon, hroom⟩, hsome⟩ := he
  have some : waiting ≠ [] := by
    rintro rfl
    simp [waits] at hsome
  have marked : markInFlight s.stream.nextSequence s.stream.batch s.stamps.entries
      = carried ++ ((waiting.take s.stream.batch).map
          (fun e => { e with state := .inFlight s.stream.nextSequence })
        ++ waiting.drop s.stream.batch) := by
    rw [hes]
    exact markInFlight_append _ _ (fun e he => carried_not_waiting hc he)
      (fun e he => isWaiting_iff.2 (hw e he))
  have size : (nextReport s).contents.length = min s.stream.batch waiting.length := by
    simp [nextReport, waits]
  have := List.length_pos_iff.2 some
  have := h.range.1.1
  simp only [formReport, withStream_stamps, withStamps_stamps, withStream_stream]
  exact {
    capacity := by
      have := h.capacity
      rw [hes] at this
      rw [marked]
      simp only [List.length_append, List.length_map, List.length_take, List.length_drop] at this ⊢
      omega
    carries := by
      refine ⟨carried ++ (waiting.take s.stream.batch).map
        (fun e => { e with state := .inFlight s.stream.nextSequence }), waiting.drop s.stream.batch,
        by rw [marked, List.append_assoc], ?_, fun e he => hw e (List.mem_of_mem_drop he)⟩
      simp [hc, carriedEntries, nextReport, waits, StampEntry.pair, Function.comp_def]
    window := by simpa using hroom
    numbered := Consecutive.append (r := nextReport s) h.numbered
    next := nextSequenceAfter_ne_zero _
    nonzero := fun r hr => by
      rcases List.mem_append.1 hr with hr | hr
      · exact h.nonzero r hr
      · exact List.mem_singleton.1 hr ▸ h.next
    sizes := fun r hr => by
      rcases List.mem_append.1 hr with hr | hr
      · exact h.sizes r hr
      · rw [List.mem_singleton.1 hr, size]
        exact ⟨by omega, Nat.min_le_left ..⟩
    on := fun ho => absurd hon ho
    timer := fun hn => by simp at hn
    range := h.range
    retry := h.retry }

/-! ## Acknowledgements (R140) -/

theorem splitWindow_some {q : Byte} {w acked rest : List Report}
    (h : splitWindow q w = some (acked, rest)) : w = acked ++ rest := by
  induction w generalizing acked with
  | nil => cases h
  | cons r w ih =>
    simp only [splitWindow] at h
    split at h
    · cases h; rfl
    · obtain ⟨p, hp, hpe⟩ := Option.map_eq_some_iff.1 h
      cases hpe
      rw [ih hp]
      rfl

theorem Consecutive.of_append {a b : List Report} {q : Byte} (h : Consecutive (a ++ b) q)
    (hb : b ≠ []) : Consecutive b q := by
  induction a with
  | nil => exact h
  | cons r a ih =>
    cases hab : a ++ b with
    | nil => exact absurd (List.append_eq_nil_iff.1 hab).2 hb
    | cons x l =>
      rw [List.cons_append, hab] at h
      exact ih (hab ▸ h.2)

theorem carriedBy_iff {reports : List Report} {e : StampEntry} : e.carriedBy reports = true ↔
    ∃ r ∈ reports, e.state = .inFlight r.sequence := by
  unfold StampEntry.carriedBy
  split
  · rename_i hs
    simp [hs]
  · rename_i q hs
    simp only [List.any_eq_true, decide_eq_true_eq, hs, EntryState.inFlight.injEq]
    exact ⟨fun ⟨r, hr, e⟩ => ⟨r, hr, e.symm⟩, fun ⟨r, hr, e⟩ => ⟨r, hr, e.symm⟩⟩

theorem carriedBy_eq_false {reports : List Report} {e : StampEntry} : e.carriedBy reports = false ↔
    ∀ r ∈ reports, e.state ≠ .inFlight r.sequence := by
  rw [← Bool.not_eq_true, carriedBy_iff]
  simp

/-- The acknowledged reports' entries are the oldest; the others stay (R140). -/
theorem Carries.ack {entries : List StampEntry} {acked rest : List Report}
    (h : Carries entries (acked ++ rest))
    (hd : (acked ++ rest).Pairwise (fun a b => a.sequence ≠ b.sequence)) :
    Carries (entries.filter fun e => !e.carriedBy acked) rest := by
  obtain ⟨carried, waiting, rfl, hc, hw⟩ := h
  rw [carriedEntries, List.flatMap_append] at hc
  obtain ⟨old, kept, rfl, hold, hkept⟩ := List.map_eq_append_iff.1 hc
  obtain ⟨-, -, across⟩ := List.pairwise_append.1 hd
  refine ⟨kept, waiting, ?_, hkept, hw⟩
  rw [List.append_assoc, List.filter_append, List.filter_append,
    List.filter_eq_nil_iff.2 fun e he => ?_, List.filter_eq_self.2 fun e he => ?_,
    List.filter_eq_self.2 fun e he => ?_]
  · rfl
  · rw [Bool.not_eq_true', carriedBy_eq_false]
    exact fun r _ hr => absurd ((hw e he).symm.trans hr) (by simp)
  · obtain ⟨r', hr', hs⟩ := state_of_carried hkept he
    rw [Bool.not_eq_true', carriedBy_eq_false]
    exact fun r hr hs' => across r hr r' hr' (EntryState.inFlight.inj (hs'.symm.trans hs))
  · obtain ⟨r, hr, hs⟩ := state_of_carried hold he
    simpa using carriedBy_iff.2 ⟨r, hr, hs⟩

theorem StreamLegal.takeAck (h : StreamLegal s) (q : Byte) : StreamLegal (takeAck q s) := by
  have parts := streamLegal_iff.1 h
  have stale : StreamLegal (staleAck s) := streamLegal_iff.2 { parts with }
  unfold Machine.takeAck
  split
  · exact stale
  · exact stale
  · rename_i hon
    split
    · exact stale
    · rename_i acked rest hsplit
      have split := splitWindow_some hsplit
      have distinct := parts.numbered.distinct parts.window
      have carries := parts.carries
      rw [split] at distinct carries
      have mem : ∀ r ∈ rest, r ∈ s.stream.window := fun r hr => split ▸ List.mem_append_right _ hr
      refine StreamLegal.tellIfEligible (streamLegal_iff.2 ?_)
      exact {
        capacity := (List.length_filter_le ..).trans parts.capacity
        carries := carries.ack distinct
        window := by
          have := parts.window
          rw [split] at this
          exact (List.length_append ▸ Nat.le_add_left ..).trans this
        numbered := by
          cases rest with
          | nil => trivial
          | cons r rest => exact (split ▸ parts.numbered).of_append (by simp)
        next := parts.next
        nonzero := fun r hr => parts.nonzero r (mem r hr)
        sizes := fun r hr => parts.sizes r (mem r hr)
        on := fun ho => absurd hon ho
        timer := fun hn => by
          obtain rfl : rest = [] := hn
          rfl
        range := parts.range
        retry := Nat.zero_le _ }

/-! ## The other operations -/

theorem revert_waiting (es : List StampEntry) :
    ∀ e ∈ es.map StampEntry.revert, e.state = .waiting := by
  intro e he
  obtain ⟨x, -, rfl⟩ := List.mem_map.1 he
  rfl

theorem StreamLegal.revertStream (h : StreamLegal s) (entered : StreamState) :
    StreamLegal (revertStream entered s) :=
  streamLegal_iff.2 ((streamLegal_iff.1 h).emptied (by simp) (revert_waiting _) entered)

theorem takeOffer_entries (o : StampOffer) (m : Moment) (q : StampQueue) :
    q.entries.length < Config.stampCapacity
      ∧ (∃ c, (takeOffer o m q).entries = q.entries ++ [⟨.waiting, c, m⟩])
    ∨ (takeOffer o m q).entries = q.entries := by
  have kept : ∀ x q, (setPendingLoss o.what x q).entries = q.entries := fun x q => by
    unfold setPendingLoss
    split <;> rfl
  unfold takeOffer
  split
  · exact .inl ⟨‹_›, _, kept ..⟩
  · exact .inr (kept ..)

theorem StreamLegal.takeOffer (h : StreamLegal s) (o : StampOffer) (m : Moment) :
    StreamLegal (s.withStamps (takeOffer o m s.stamps)) := by
  have parts := streamLegal_iff.1 h
  rcases takeOffer_entries o m s.stamps with ⟨hroom, c, he⟩ | he
  · refine streamLegal_iff.2 ?_
    simp only [withStamps_stamps, withStamps_stream, he]
    exact { parts with
      capacity := by simpa using hroom
      carries := parts.carries.append rfl }
  · exact h.congr he rfl

theorem StreamLegal.boundary (h : StreamLegal s) : StreamLegal (boundary s) := by
  have asked : StreamLegal (askNoticeOrReport s) := by
    unfold askNoticeOrReport
    split
    · exact h.congr rfl rfl
    · split
      · refine streamLegal_iff.2 ?_
        exact (streamLegal_iff.1 h).remark (clearFirstMark_unmarked _)
      · split
        · exact ((streamLegal_iff.1 h).form ‹_›).congr rfl rfl
        · exact h.congr rfl rfl
  unfold Machine.boundary
  repeat' split
  · exact h.congr rfl rfl
  · exact h.congr rfl rfl
  · exact h.congr rfl rfl
  · exact asked

theorem StreamLegal.takeEndClaims (h : StreamLegal s) (l : List EndClaim) :
    StreamLegal (takeEndClaims l s) := by
  induction l generalizing s with
  | nil => exact h
  | cons c l ih =>
    refine ih ?_
    cases c with
    | boundary =>
      show StreamLegal (answerTelling s)
      unfold answerTelling
      split
      · refine StreamLegal.boundary ?_
        exact h.congr rfl rfl
      · exact h
    | offer | offers | removal | removals => exact h.congr (by simp [takeEndClaim]) (by simp [takeEndClaim])

theorem streamLegal_steady : Steady StreamLegal where
  settle {u} h := by
    have ended := StreamLegal.takeEndClaims (s := u.withEndings u.endings.tail) (h.congr rfl rfl)
      (u.endings.headD usualEnding)
    exact ended.congr (by simp [Machine.settle]) (by simp [Machine.settle])
  goOn _ h := h.congr (by simp) (by simp)
  answer _ _ _ h := h.congr (by simp) (by simp)
  pending _ h := h.congr rfl rfl
  now _ h := h.congr rfl rfl

/-- The stream takes a configuration in range: another one only in OFF (R127). -/
theorem StreamLegal.configured (h : StreamLegal s) {f : StreamFields} (hf : streamInRange f = true)
    (hs : ¬ (s.stream.state ≠ .off ∧ (!sameConfig f s.stream) = true)) :
    StreamLegal (s.withStream (s.stream.configured f)) := by
  have parts := streamLegal_iff.1 h
  have range : (s.stream.configured f).InRange := by
    simpa [streamInRange, ReportStream.configured, ReportStream.InRange, and_assoc] using hf
  refine streamLegal_iff.2 ?_
  by_cases hoff : s.stream.state = .off
  · obtain ⟨hw, hr⟩ := parts.on (by simp [hoff])
    refine { parts with sizes := fun r hm => ?_, range := range, retry := ?_ }
    · exact absurd (hw ▸ hm : r ∈ []) (by simp)
    · exact (hr.symm ▸ Nat.zero_le _ : s.stream.retryCount ≤ f.retryLimit.toNat)
  · have same : sameConfig f s.stream = true := by
      by_contra hne
      exact hs ⟨hoff, by simpa using hne⟩
    simp only [sameConfig, Bool.and_eq_true, decide_eq_true_eq] at same
    obtain ⟨⟨⟨hb, hh⟩, hi⟩, hl⟩ := same
    have : s.stream.configured f = s.stream := by
      simp only [ReportStream.configured, hb, hh, hi, hl]
    simpa [this] using parts

theorem StreamLegal.enableStream (h : StreamLegal s) (on : Bool) : StreamLegal (enableStream on s) := by
  have parts := streamLegal_iff.1 h
  unfold Machine.enableStream
  split
  · rename_i hoff
    refine StreamLegal.tellIfEligible (streamLegal_iff.2 ?_)
    exact parts.emptied (Nat.le_refl _)
      (parts.all_waiting (parts.on (by simp [hoff])).1) .on
  · exact h
  · exact h
  · exact h.revertStream _
  · refine StreamLegal.tellIfEligible (streamLegal_iff.2 ?_)
    exact { parts with
      on := fun ho => absurd rfl ho
      retry := Nat.zero_le _ }
  · rename_i hst
    exact streamLegal_iff.2 { parts with on := fun _ => parts.on (by simp [hst]) }

/-! ## Every step -/

theorem StreamLegal.hostRule (h : StreamLegal s) (i : Instr) (c : QueuedCommand) :
    StreamLegal (hostRule i c s) := by
  have done : ∀ {u : State} st f, StreamLegal u → StreamLegal (answer c st f u) :=
    fun st f hu => streamLegal_steady.answer c st f hu
  by_cases hi : Block.stamps ∉ touches i ∧ Block.stream ∉ touches i
  · exact h.congr (congrArg StampQueue.entries ((hostRule_touchesOnly i c s).stamps hi.1))
      ((hostRule_touchesOnly i c s).stream hi.2)
  · cases i <;> simp only [touches, List.mem_cons, List.not_mem_nil, reduceCtorEq, or_self, or_false,
      or_true, not_false_eq_true, not_true_eq_false, and_self, and_true] at hi
    case stream f _ =>
      show StreamLegal (streamRule f c s)
      unfold streamRule
      split
      · exact done _ _ h
      · rename_i on _
        split
        · exact done _ _ h
        · rename_i hf
          split
          · exact done _ _ h
          · exact done _ _ ((h.configured (by simpa using hf) ‹_›).enableStream on)
    case release n _ =>
      show StreamLegal (releaseRule n c s)
      unfold releaseRule
      split
      · exact done _ _ h
      · rename_i hoff
        split
        · exact done _ _ h
        · have parts := streamLegal_iff.1 h
          have empty := (parts.on (by simp [not_not.1 hoff])).1
          refine done _ _ (streamLegal_iff.2 { parts with capacity := ?_, carries := ?_ })
          · exact (List.length_drop ▸ Nat.sub_le ..).trans parts.capacity
          · simp only [withStamps_stream, withStamps_stamps, empty]
            exact carries_nil fun e he => parts.all_waiting empty e (List.mem_of_mem_drop he)
    all_goals exact h

theorem StreamLegal.eventOf (h : StreamLegal s) {i : Instr} (hu : eventOf i s = some u) :
    StreamLegal u := by
  by_cases hi : Block.stamps ∉ touches i ∧ Block.stream ∉ touches i
  · exact h.congr (congrArg StampQueue.entries ((eventOf_touchesOnly hu).stamps hi.1))
      ((eventOf_touchesOnly hu).stream hi.2)
  · have parts := streamLegal_iff.1 h
    cases i <;> simp only [touches, List.mem_cons, List.not_mem_nil, reduceCtorEq, or_self, or_false,
      or_true, not_false_eq_true, not_true_eq_false, and_self, and_true] at hi
    all_goals simp only [Machine.eventOf, reduceCtorEq] at hu
    case ack =>
      split at hu
      · cases hu
      · split at hu
        · cases hu
          exact streamLegal_iff.2 { parts with }
        · split at hu <;> cases hu
          refine StreamLegal.takeAck ?_ _
          exact h.congr rfl rfl
    case stampOffer =>
      obtain ⟨o, -, rfl⟩ := Option.map_eq_some_iff.1 hu
      have taken := h.takeOffer o s.now
      split
      · refine StreamLegal.tellIfEligible ?_
        exact taken.congr rfl rfl
      · exact taken.congr rfl rfl
    case retransmitExpiry =>
      obtain ⟨m, hm, rfl⟩ := Option.map_eq_some_iff.1 hu
      have running : s.stream.window ≠ [] := fun he => by simp [parts.timer he] at hm
      have hon : s.stream.state = .on := by
        by_contra ho
        exact running (parts.on ho).1
      split
      · rename_i hlt
        have base := parts.remark (w := s.stream.window.map Report.mark) (by
          simp [unmarked, Report.mark, Function.comp_def])
        refine streamLegal_iff.2 { base with
          on := fun ho => absurd hon ho
          timer := fun _ => rfl
          retry := ?_ }
        exact hlt
      · exact (h.revertStream .stalled).congr rfl rfl
    case endOfTransmission =>
      split at hu <;> cases hu
      rename_i src _ _
      refine StreamLegal.boundary (StreamLegal.congr (s := tellSent src (idleTx s)) ?_ rfl rfl)
      unfold tellSent
      split
      · exact h.congr rfl rfl
      · exact h.congr rfl rfl
      all_goals
        refine streamLegal_iff.2 (parts.withTimer fun he => ?_)
        simp [timerAfterSending, he, parts.timer he]
    case postResetIdleEnd =>
      split at hu <;> cases hu
      refine StreamLegal.boundary ?_
      exact h.congr rfl rfl
    case resetApplies =>
      split at hu
      · cases hu
      · split at hu <;> cases hu
        exact reset_streamLegal.congr rfl rfl

/-- Settles O58: the queue is the window's entries and then waiting ones, through the forming of a
report, its acknowledgement, a reversion and an admission. -/
theorem everyStepKeepsTheStreamLegal : Obligations.EveryStepKeepsTheStreamLegal := by
  intro s t hs h
  refine streamLegal_steady.step h hs (fun i c _ _ h => h.hostRule i c) (fun _ _ _ h hu => h.eventOf hu)
    fun i s t hd hu h => ?_
  rcases deviceReset_next hd hu with rfl | ⟨-, -, e⟩ | ⟨hr, -⟩
  · exact h
  · rw [e]; exact h.congr rfl rfl
  · exact reset_streamLegal.congr (by rw [hr.stamps]) hr.stream

end Sys2Proof.Machine
end

section
/-! The laws of the command block and the transmitter, part by part: the slots' accounts, the commands
and awaits in turn, the execution's progress, and what an idle transmitter leaves waiting (R158, R159,
R163, R164, R189). -/

namespace Sys2Proof.Machine

variable {s t u : State}

/-! ## The slots' accounts -/

/-- Every slot is accounted for: RESERVED where it is held, FILLED where the reply queue has it, SENDING
where its frame is under way. -/
structure Accounts (held : Fin 16 → Prop) (b : CommandBlock) (x : TxState) : Prop where
  reserved : ∀ i : Fin 16, b.slots[i] = .reserved ↔ held i
  queued : b.replyQueue.Nodup
  filled : ∀ i : Fin 16, (∃ r, b.slots[i] = .filled r) ↔ i ∈ b.replyQueue
  sending : ∀ (i : Fin 16) (r : Reply), b.slots[i] = .sending r ↔
    x = .sending (.reply i) ⟨r.tag, r.kind, r.payload⟩

variable {held held' : Fin 16 → Prop} {b b' : CommandBlock} {x : TxState}

theorem Accounts.congr (h : Accounts held b x) (hs : b'.slots = b.slots)
    (hq : b'.replyQueue = b.replyQueue) (hh : ∀ i, held' i ↔ held i) : Accounts held' b' x where
  reserved i := by rw [hs, hh]; exact h.reserved i
  queued := hq ▸ h.queued
  filled i := by rw [hs, hq]; exact h.filled i
  sending i r := by rw [hs]; exact h.sending i r

theorem setSlot (v : Vector SlotState 16) (i j : Fin 16) (y : SlotState) :
    (v.set i y)[j] = if j = i then y else v[j] := by
  by_cases h : j = i
  · subst h; simp
  · have := Fin.val_ne_of_ne (Ne.symm h)
    simp [h, this]

/-- A slot that is RESERVED or FREE is filled: it is held no more, and its reply is the last to go
(R159, R164). -/
theorem Accounts.fill (h : Accounts held s.cmd s.tx.state) {i : Fin 16} (r : Reply)
    (hi : s.cmd.slots[i] = .reserved ∨ s.cmd.slots[i] = .free) :
    Accounts (fun j => held j ∧ j ≠ i) (fillSlot i r s).cmd (fillSlot i r s).tx.state := by
  have unfilled : i ∉ s.cmd.replyQueue := fun hm => by
    obtain ⟨r', hr'⟩ := (h.filled i).2 hm
    rcases hi with hi | hi <;> exact nomatch hi.symm.trans hr'
  constructor
  · intro j
    rw [fillSlot_slots, setSlot]
    by_cases e : j = i
    · simp [e]
    · simp only [e, if_false, not_false_eq_true, and_true, ne_eq]
      exact h.reserved j
  · simp only [fillSlot_cmd_rest]
    exact List.nodup_append.2 ⟨h.queued, List.nodup_singleton _, fun a ha b hb e =>
      unfilled ((List.mem_singleton.1 hb) ▸ e ▸ ha)⟩
  · intro j
    rw [fillSlot_slots, setSlot]
    simp only [fillSlot_cmd_rest, List.mem_append, List.mem_singleton]
    by_cases e : j = i
    · simp [e]
    · simp only [e, if_false, or_false]
      exact h.filled j
  · intro j r'
    rw [fillSlot_slots, setSlot, fillSlot_tx]
    by_cases e : j = i
    · subst e
      rw [if_pos rfl]
      refine ⟨fun hr => (nomatch hr), fun hx => ?_⟩
      have hs := (h.sending j r').2 hx
      rcases hi with hi | hi <;> exact nomatch hi.symm.trans hs
    · rw [if_neg e]
      exact h.sending j r'

/-- Fills slots one after another. -/
def fillSlots : List (Fin 16 × Reply) → State → State
  | [], s => s
  | p :: l, s => fillSlots l (fillSlot p.1 p.2 s)

theorem answerEntries_eq (st : Status) (f : Payload) (l : List AwaitEntry) (s : State) :
    answerEntries st f l s = fillSlots (l.map fun a => (a.slot, awaitReply a st f)) s := by
  induction l generalizing s with
  | nil => rfl
  | cons a l ih => exact ih _

theorem abortCommands_eq (l : List QueuedCommand) (s : State) :
    abortCommands l s = fillSlots (l.map fun c => (c.slot, replyTo c .aborted [])) s := by
  induction l generalizing s with
  | nil => rfl
  | cons a l ih => exact ih _

/-- RESERVED slots, each filled once, are held no more. -/
theorem Accounts.fillSlots {l : List (Fin 16 × Reply)} (h : Accounts held s.cmd s.tx.state)
    (hn : (l.map Prod.fst).Nodup) (hl : ∀ i ∈ l.map Prod.fst, held i) :
    Accounts (fun j => held j ∧ j ∉ l.map Prod.fst) (fillSlots l s).cmd (fillSlots l s).tx.state := by
  induction l generalizing s held with
  | nil => exact h.congr rfl rfl (by simp)
  | cons p l ih =>
    rw [List.map_cons] at hn hl
    obtain ⟨hp, hn⟩ := List.nodup_cons.1 hn
    have first := h.fill (i := p.1) p.2 (.inl ((h.reserved _).2 (hl _ (by simp))))
    refine (ih first hn fun i hi => ⟨hl i (by simp [hi]), fun e => hp (e ▸ hi)⟩).congr rfl rfl ?_
    intro i
    simp only [List.map_cons, List.mem_cons, not_or]
    tauto

/-- A FREE slot is reserved (R162). -/
theorem Accounts.reserve (h : Accounts held b x) {i : Fin 16} (hi : b.slots[i] = .free)
    (hs : b'.slots = b.slots.set i .reserved) (hq : b'.replyQueue = b.replyQueue) :
    Accounts (fun j => held j ∨ j = i) b' x := by
  constructor
  · intro j
    rw [hs, setSlot]
    by_cases e : j = i
    · simp [e]
    · simp only [e, if_false, or_false]
      exact h.reserved j
  · exact hq ▸ h.queued
  · intro j
    rw [hs, setSlot, hq, ← h.filled j]
    by_cases e : j = i
    · subst e
      simp [hi]
    · rw [if_neg e]
  · intro j r
    rw [hs, setSlot, ← h.sending j r]
    by_cases e : j = i
    · subst e
      simp [hi]
    · rw [if_neg e]

/-- A frame that ends frees its slot, and the transmitter sends nothing (R190). -/
theorem Accounts.sent {src : FrameSource} {f : Frame} (h : Accounts held s.cmd (.sending src f)) :
    Accounts held (tellSent src (idleTx s)).cmd .idle := by
  cases src with
  | reply i =>
    have own : s.cmd.slots[i] = .sending ⟨f.kind, f.tag, f.payload⟩ := (h.sending _ _).2 rfl
    constructor
    · intro j
      show (s.cmd.slots.set i .free)[j] = _ ↔ _
      rw [setSlot, ← h.reserved j]
      by_cases e : j = i
      · subst e
        simp [own]
      · rw [if_neg e]
    · exact h.queued
    · intro j
      show (∃ r, (s.cmd.slots.set i .free)[j] = _) ↔ j ∈ s.cmd.replyQueue
      rw [setSlot, ← h.filled j]
      by_cases e : j = i
      · subst e
        simp [own]
      · rw [if_neg e]
    · intro j r
      show (s.cmd.slots.set i .free)[j] = _ ↔ _
      rw [setSlot]
      by_cases e : j = i
      · simp [e]
      · rw [if_neg e, h.sending j r]
        simp [Ne.symm e]
  | notice | firstSending _ | resend _ =>
    refine ⟨h.reserved, h.queued, h.filled, fun j r => ?_⟩
    refine ⟨fun hr => ?_, fun hr => nomatch hr⟩
    exact nomatch (h.sending j r).1 hr

/-- A transmitter that begins a frame of no slot, having sent none. -/
theorem Accounts.ofNoSlot (h : Accounts held b .idle) {src : FrameSource} {f : Frame}
    (hs : ∀ i, src ≠ .reply i) : Accounts held b (.sending src f) where
  reserved := h.reserved
  queued := h.queued
  filled := h.filled
  sending i r := (h.sending i r).trans
    ⟨fun e => (nomatch e), fun e => absurd (TxState.sending.inj e).1 (hs i)⟩

/-- The oldest reply is begun (R189). -/
theorem Accounts.beginReply (h : Accounts held b .idle) {i : Fin 16} {rest : List (Fin 16)} {r : Reply}
    (hq : b.replyQueue = i :: rest) (hr : b.slots[i] = .filled r) :
    Accounts held { b with slots := b.slots.set i (.sending r), replyQueue := rest }
      (.sending (.reply i) ⟨r.tag, r.kind, r.payload⟩) := by
  have nodup := hq ▸ h.queued
  obtain ⟨fresh, nodup⟩ := List.nodup_cons.1 nodup
  constructor
  · intro j
    rw [setSlot, ← h.reserved j]
    by_cases e : j = i
    · subst e
      simp [hr]
    · rw [if_neg e]
  · exact nodup
  · intro j
    rw [setSlot]
    by_cases e : j = i
    · subst e
      simp [fresh]
    · rw [if_neg e, h.filled j, hq]
      simp [e]
  · intro j r'
    rw [setSlot]
    by_cases e : j = i
    · subst e
      obtain ⟨k, g, p⟩ := r
      obtain ⟨k', g', p'⟩ := r'
      simp only [if_true, SlotState.sending.injEq, Reply.mk.injEq, TxState.sending.injEq, true_and,
        Frame.mk.injEq]
      tauto
    · rw [if_neg e, h.sending j r']
      simp [Ne.symm e]

/-! ## The commands and the awaits -/

/-- The commands queued and the awaits keep within their lists, hold slots of their own, and have tags of
their own, none of them 0. -/
structure Entrants (b : CommandBlock) : Prop where
  capacity : b.queue.length ≤ Config.commandCapacity ∧ b.awaits.length ≤ Config.awaitCapacity
  slots : (heldSlots b).Nodup
  tags : (usedTags b).Nodup ∧ (0 : Byte) ∉ usedTags b

/-- Fewer of them, in the same order. -/
theorem Entrants.sublist (h : Entrants b) (hq : b'.queue.Sublist b.queue)
    (ha : b'.awaits.Sublist b.awaits) : Entrants b' := by
  have slots : (heldSlots b').Sublist (heldSlots b) := (hq.map _).append (ha.map _)
  have tags : (usedTags b').Sublist (usedTags b) := (hq.map _).append (ha.map _)
  exact ⟨⟨hq.length_le.trans h.capacity.1, ha.length_le.trans h.capacity.2⟩, h.slots.sublist slots,
    h.tags.1.sublist tags, fun hz => h.tags.2 (tags.subset hz)⟩

theorem Entrants.awaits_slots (h : Entrants b) : (b.awaits.map AwaitEntry.slot).Nodup :=
  (List.nodup_append.1 h.slots).2.1

/-- Awaits of which some leave: those left hold what the others do not. -/
theorem mem_slots_filter {l : List AwaitEntry} (hn : (l.map AwaitEntry.slot).Nodup)
    (p : AwaitEntry → Bool) (i : Fin 16) : i ∈ (l.filter fun a => !p a).map AwaitEntry.slot
      ↔ i ∈ l.map AwaitEntry.slot ∧ i ∉ (l.filter p).map AwaitEntry.slot := by
  simp only [List.mem_map, List.mem_filter, Bool.not_eq_true', not_exists, not_and]
  constructor
  · rintro ⟨a, ⟨ha, hp⟩, rfl⟩
    refine ⟨⟨a, ha, rfl⟩, fun y ⟨hy, hpy⟩ e => ?_⟩
    obtain rfl := List.inj_on_of_nodup_map hn hy ha e
    exact absurd (hp.symm.trans hpy) (by simp)
  · rintro ⟨⟨a, ha, rfl⟩, hno⟩
    exact ⟨a, ⟨ha, by simpa using fun hp => hno a ⟨ha, hp⟩ rfl⟩, rfl⟩

/-! ## The progress of an execution, and the idle transmitter -/

/-- The command under execution stands at the front of the queue. -/
structure InTurn (busy : Bool) (b : CommandBlock) : Prop where
  clearing : busy = true → b.progress = .notStarted
    ∧ ∃ c, b.queue.head? = some c ∧ c.kind = kindTriggerClear
  reading : ∀ made, b.progress = .reading made → made.length < statusReadingCount
    ∧ ∃ c, b.queue.head? = some c ∧ c.kind = kindStatus
  replying : ∀ r, b.progress = .replying r →
    ∃ c, b.queue.head? = some c ∧ r.tag = c.tag ∧ r.kind = replyKind c.kind

/-- An execution that has not begun, no TRIGGER_CLEAR's being under way. -/
theorem InTurn.notStarted (hb : b.progress = .notStarted) : InTurn false b where
  clearing h := nomatch h
  reading _ h := nomatch hb.symm.trans h
  replying _ h := nomatch hb.symm.trans h

/-- A reply made for the oldest command. -/
theorem InTurn.made {c : QueuedCommand} {st : Status} {f : Payload}
    (hb : b.progress = .replying (replyTo c st f)) (hc : b.queue.head? = some c) : InTurn false b where
  clearing h := nomatch h
  reading _ h := nomatch hb.symm.trans h
  replying r h := by
    obtain rfl := Progress.replying.inj (hb.symm.trans h)
    exact ⟨c, hc, rfl, rfl⟩

/-- The same progress, the oldest command being the same where there is one. -/
theorem InTurn.congr {busy : Bool} (h : InTurn busy b) (hp : b'.progress = b.progress)
    (hq : ∀ c, b.queue.head? = some c → b'.queue.head? = some c) : InTurn busy b' where
  clearing hb := by
    obtain ⟨h1, c, hc, hk⟩ := h.clearing hb
    exact ⟨hp.trans h1, c, hq c hc, hk⟩
  reading made hm := by
    obtain ⟨h1, c, hc, hk⟩ := h.reading made (hp ▸ hm)
    exact ⟨h1, c, hq c hc, hk⟩
  replying r hr := by
    obtain ⟨c, hc, hk⟩ := h.replying r (hp ▸ hr)
    exact ⟨c, hq c hc, hk⟩

/-- What an idle transmitter that has been told nothing leaves waiting. -/
structure IdleSound (s : State) : Prop where
  replies : s.tx.state = .idle → s.tx.told = false → s.cmd.replyQueue = []
  notices : s.tx.state = .idle → s.tx.told = false → s.cmd.resetPending = none →
    s.notices.queue = [] ∧ ∀ r ∈ s.stream.window, r.marked = false

theorem IdleSound.of_told (h : s.tx.told = true) : IdleSound s :=
  ⟨fun _ ht => absurd (h.symm.trans ht) (by simp), fun _ ht => absurd (h.symm.trans ht) (by simp)⟩

theorem IdleSound.of_not_idle (h : s.tx.state ≠ .idle) : IdleSound s :=
  ⟨fun hs => absurd hs h, fun hs => absurd hs h⟩

/-! ## The laws together -/

/-- The laws of the command block and the transmitter as they stand within a step, before the telling of
a transmitter that is not idle has been dropped. -/
structure LinkSound (s : State) : Prop where
  entrants : Entrants s.cmd
  accounts : Accounts (· ∈ heldSlots s.cmd) s.cmd s.tx.state
  pending : s.cmd.resetPending.isSome → s.cmd.queue = [] ∧ s.cmd.awaits = []
  turn : InTurn (interpreterBusy s) s.cmd
  idle : IdleSound s

theorem slotsLegal_iff : SlotsLegal s ↔ LinkSound s ∧ (s.tx.told = true → s.tx.state = .idle) := by
  constructor
  · intro h
    exact ⟨⟨⟨h.capacity, h.held, h.tags⟩, ⟨h.reserved, h.queued, h.filled, h.sending⟩, h.pending,
      ⟨h.clearing, h.reading, h.replying⟩, ⟨h.idleReplies, h.idleNotices⟩⟩, h.told⟩
  · rintro ⟨⟨⟨hcap, hheld, htags⟩, ⟨hres, hqueued, hfilled, hsending⟩, hpend, ⟨hclear, hread, hreply⟩,
      ⟨hidle, hnotices⟩⟩, htold⟩
    exact ⟨hcap, hheld, hres, hqueued, hfilled, hsending, htags, hpend, hclear, hread, hreply, htold,
      hidle, hnotices⟩

/-- Everything the laws speak of is as it was, but that the transmitter may have been told more and the
window's marks may be fewer. -/
structure QuietFor (s u : State) : Prop where
  cmd : u.cmd = s.cmd
  state : u.tx.state = s.tx.state
  told : u.tx.told = false → s.tx.told = false
  notices : u.notices.queue = s.notices.queue
  marks : (∀ r ∈ s.stream.window, r.marked = false) → u.tx.told = false →
    ∀ r ∈ u.stream.window, r.marked = false

theorem IdleSound.quiet (h : IdleSound s) (hq : QuietFor s u) : IdleSound u where
  replies hs ht := by
    rw [hq.cmd]
    exact h.replies (hq.state ▸ hs) (hq.told ht)
  notices hs ht hp := by
    rw [hq.cmd] at hp
    obtain ⟨hn, hm⟩ := h.notices (hq.state ▸ hs) (hq.told ht) hp
    exact ⟨hq.notices ▸ hn, hq.marks hm ht⟩

theorem LinkSound.quiet (h : LinkSound s) (hq : QuietFor s u)
    (hb : interpreterBusy u = interpreterBusy s) : LinkSound u where
  entrants := hq.cmd ▸ h.entrants
  accounts := by rw [hq.cmd, hq.state]; exact h.accounts
  pending := hq.cmd ▸ h.pending
  turn := by rw [hq.cmd, hb]; exact h.turn
  idle := h.idle.quiet hq

theorem interpreterBusy_congr (h : u.triggers.claim = s.triggers.claim) :
    interpreterBusy u = interpreterBusy s := by
  unfold interpreterBusy
  rw [h]

theorem QuietFor.of_eq (hc : u.cmd = s.cmd) (ht : u.tx = s.tx) (hn : u.notices.queue = s.notices.queue)
    (hs : u.stream.window = s.stream.window) : QuietFor s u :=
  ⟨hc, by rw [ht], by rw [ht]; exact id, hn, fun hm _ => hs ▸ hm⟩

end Sys2Proof.Machine
end

section
/-! The end of a step keeps the laws of the command block and the transmitter (R146, R168, R189). -/

namespace Sys2Proof.Machine

variable {s t u : State}

/-! ## Slots filled, and what held them gone -/

theorem fillSlots_tx (l : List (Fin 16 × Reply)) (s : State) :
    (fillSlots l s).tx = { s.tx with told := s.tx.told || !l.isEmpty } := by
  induction l generalizing s with
  | nil => simp [fillSlots]
  | cons p l ih => simp [fillSlots, ih]

theorem mem_heldSlots {b : CommandBlock} {i : Fin 16} : i ∈ heldSlots b ↔
    i ∈ b.queue.map QueuedCommand.slot ∨ i ∈ b.awaits.map AwaitEntry.slot := List.mem_append

/-- Held slots are filled, and the commands and awaits that held them are gone. -/
theorem LinkSound.filled (h : LinkSound s) {l : List (Fin 16 × Reply)} (hn : (l.map Prod.fst).Nodup)
    (hl : ∀ i ∈ l.map Prod.fst, i ∈ heldSlots s.cmd) (hs : u.cmd.slots = (fillSlots l s).cmd.slots)
    (hr : u.cmd.replyQueue = (fillSlots l s).cmd.replyQueue) (ht : u.tx = (fillSlots l s).tx)
    (hh : ∀ i, i ∈ heldSlots u.cmd ↔ i ∈ heldSlots s.cmd ∧ i ∉ l.map Prod.fst)
    (hq : u.cmd.queue.Sublist s.cmd.queue) (ha : u.cmd.awaits.Sublist s.cmd.awaits)
    (hp : u.cmd.resetPending.isSome → u.cmd.queue = [] ∧ u.cmd.awaits = [])
    (turn : InTurn (interpreterBusy u) u.cmd) (idle : l = [] → IdleSound u) : LinkSound u where
  entrants := h.entrants.sublist hq ha
  accounts := by
    rw [ht]
    exact (h.accounts.fillSlots hn hl).congr hs hr hh
  pending := hp
  turn := turn
  idle := by
    cases l with
    | nil => exact idle rfl
    | cons p l => exact .of_told (by rw [ht, fillSlots_tx]; simp)

/-- The await list answers some of its entries, which leave (R168, R169). -/
theorem LinkSound.answerSome (h : LinkSound s) (p : AwaitEntry → Bool) (st : Status) (f : Payload)
    (hc : u.cmd = { (answerEntries st f (s.cmd.awaits.filter p) s).cmd with
      awaits := s.cmd.awaits.filter fun a => !p a })
    (hx : u.tx = (answerEntries st f (s.cmd.awaits.filter p) s).tx)
    (hn : u.notices.queue = s.notices.queue) (hs : u.stream.window = s.stream.window)
    (hb : interpreterBusy u = interpreterBusy s) : LinkSound u := by
  have nodup := h.entrants.awaits_slots
  have slots : ((s.cmd.awaits.filter p).map fun a => (a.slot, awaitReply a st f)).map Prod.fst
      = (s.cmd.awaits.filter p).map AwaitEntry.slot := by simp
  have leaving : ∀ i ∈ (s.cmd.awaits.filter p).map AwaitEntry.slot,
      i ∈ s.cmd.awaits.map AwaitEntry.slot := fun i hi =>
    (List.Sublist.map _ List.filter_sublist).subset hi
  have awaits : u.cmd.awaits = s.cmd.awaits.filter fun a => !p a := by rw [hc]
  have queue : u.cmd.queue = s.cmd.queue := by rw [hc]; simp
  rw [answerEntries_eq] at hc hx
  refine h.filled (l := (s.cmd.awaits.filter p).map fun a => (a.slot, awaitReply a st f)) ?_ ?_
    (by rw [hc]) (by rw [hc]) hx ?_ ?_ ?_ ?_ ?_ ?_
  · rw [slots]
    exact nodup.sublist (List.Sublist.map _ List.filter_sublist)
  · rw [slots]
    exact fun i hi => mem_heldSlots.2 (.inr (leaving i hi))
  · intro i
    rw [slots, mem_heldSlots, mem_heldSlots, queue, awaits, mem_slots_filter nodup]
    have apart : i ∈ s.cmd.queue.map QueuedCommand.slot →
        i ∉ (s.cmd.awaits.filter p).map AwaitEntry.slot := fun hi hi' =>
      (List.nodup_append.1 h.entrants.slots).2.2 i hi i (leaving i hi') rfl
    tauto
  · rw [queue]
  · rw [awaits]
    exact List.filter_sublist
  · rw [queue, awaits]
    have : u.cmd.resetPending = s.cmd.resetPending := by rw [hc, ← answerEntries_eq]; simp
    rw [this]
    intro hp
    obtain ⟨h1, h2⟩ := h.pending hp
    exact ⟨h1, by rw [h2]; rfl⟩
  · rw [hb]
    refine h.turn.congr ?_ fun c hcc => by rw [queue]; exact hcc
    rw [hc, ← answerEntries_eq]
    simp
  · intro he
    have none : s.cmd.awaits.filter p = [] := List.map_eq_nil_iff.1 he
    have all : (s.cmd.awaits.filter fun a => !p a) = s.cmd.awaits :=
      List.filter_eq_self.2 fun a ha => by
        simpa using List.filter_eq_nil_iff.1 none a ha
    refine h.idle.quiet (.of_eq ?_ ?_ hn hs)
    · rw [hc, none, all]
      rfl
    · rw [hx, none]
      rfl

theorem LinkSound.answerAwaits (h : LinkSound s) (x : Handle) (e : EndReason) :
    LinkSound (answerAwaits x e s) := by
  have split : (s.cmd.awaits.filter fun a => decide (a.handle ≠ x))
      = s.cmd.awaits.filter fun a => !decide (a.handle = x) := by simp
  refine h.answerSome (fun a => decide (a.handle = x)) .ok (handleBytes x ++ [e.code]) ?_ rfl (by simp)
    (by simp) (interpreterBusy_congr (by simp))
  rw [← split]
  rfl

theorem LinkSound.answerReports (h : LinkSound s) (l : List RemovalReport) :
    LinkSound (answerReports l s) := by
  induction l generalizing s with
  | nil => exact h
  | cons x l ih => exact ih (h.answerAwaits _ _)

/-- What leaves all that the laws speak of alone. -/
theorem LinkSound.congr (h : LinkSound s) (hc : u.cmd = s.cmd) (ht : u.tx = s.tx)
    (hn : u.notices.queue = s.notices.queue) (hs : u.stream.window = s.stream.window)
    (hb : u.triggers.claim = s.triggers.claim) : LinkSound u :=
  h.quiet (.of_eq hc ht hn hs) (interpreterBusy_congr hb)

theorem LinkSound.takeRemovals (h : LinkSound s) : LinkSound (takeRemovals s) := by
  refine LinkSound.answerReports ?_ _
  exact h.congr rfl rfl rfl rfl rfl

/-- The reply made fills the slot of the oldest command, which leaves the queue (R164). -/
theorem LinkSound.fillMade (h : LinkSound s) : LinkSound (fillMade s) := by
  have same : (∀ r, s.cmd.progress ≠ .replying r) → LinkSound (Machine.fillMade s) := fun hp => by
    rwa [fillMade_none hp]
  cases hp : s.cmd.progress with
  | notStarted => exact same (by simp [hp])
  | reading made => exact same (by simp [hp])
  | replying r =>
    obtain ⟨c, hc, -⟩ := h.turn.replying r hp
    obtain ⟨rest, hq⟩ := List.head?_eq_some_iff.1 hc
    have taken := h.takeRemovals
    have queue : (Machine.takeRemovals s).cmd.queue = c :: rest := by simpa using hq
    have idle : interpreterBusy s = false := by
      cases hb : interpreterBusy s with
      | false => rfl
      | true => exact absurd (hp.symm.trans (h.turn.clearing hb).1) (by simp)
    have filled : Machine.fillMade s = (fillSlot c.slot r (Machine.takeRemovals s)).withCmd
        { (fillSlot c.slot r (Machine.takeRemovals s)).cmd with
          queue := rest, progress := .notStarted } := by
      simp [Machine.fillMade, hp, hq]
    have busy : interpreterBusy (Machine.fillMade s) = false :=
      (interpreterBusy_congr (by simp)).trans idle
    have nodup := taken.entrants.slots
    simp only [heldSlots, queue, List.map_cons, List.cons_append, List.nodup_cons] at nodup
    refine taken.filled (l := [(c.slot, r)]) (by simp) ?_ (by rw [filled]; rfl) (by rw [filled]; rfl)
      (by rw [filled]; rfl) ?_ ?_ ?_ ?_ ?_ (by simp)
    · intro i hi
      obtain rfl : i = c.slot := by simpa using hi
      rw [heldSlots, queue]
      simp
    · intro i
      have : heldSlots (Machine.fillMade s).cmd = rest.map QueuedCommand.slot
          ++ (Machine.takeRemovals s).cmd.awaits.map AwaitEntry.slot := by
        rw [filled]; simp [heldSlots]
      rw [this, heldSlots, queue]
      simp only [List.map_cons, List.cons_append, List.mem_cons, List.map_nil, List.not_mem_nil,
        or_false]
      constructor
      · exact fun hi => ⟨.inr hi, fun e => nodup.1 (e ▸ hi)⟩
      · exact fun ⟨hi, hne⟩ => hi.resolve_left hne
    · rw [filled, queue]
      exact List.sublist_cons_self ..
    · rw [filled]
      exact .refl _
    · intro hr
      have : s.cmd.resetPending.isSome := by
        rw [filled] at hr
        simpa using hr
      exact absurd ((h.pending this).1.symm.trans hq) (by simp)
    · rw [busy]
      exact .notStarted (by rw [filled]; rfl)

theorem LinkSound.goOn (h : LinkSound s) (go : Extent) : LinkSound (goOn go s) := by
  cases go with
  | oneClaim => exact h
  | toReply => exact h.fillMade

/-! ## The boundary (R189, R191) -/

section Asks

variable (hq : s.cmd.replyQueue = []) (hp : s.cmd.resetPending = none)
include hq hp

theorem boundary_notice {n : Notice} {rest : List Notice} (hn : s.notices.queue = n :: rest) :
    boundary s = beginFrame .notice (noticeFrame n)
      (s.withNotices { s.notices with queue := rest }) := by
  simp [boundary_ask hq hp, askNoticeOrReport, hn]

theorem boundary_resend {r : Report} (hn : s.notices.queue = [])
    (hm : s.stream.window.find? (fun r => r.marked) = some r) :
    boundary s = beginFrame (.resend r.sequence) (reportFrame r)
      (s.withStream { s.stream with window := clearFirstMark s.stream.window }) := by
  simp [boundary_ask hq hp, askNoticeOrReport, hn, hm]

theorem boundary_report (hn : s.notices.queue = [])
    (hm : s.stream.window.find? (fun r => r.marked) = none) (he : eligible s = true) :
    boundary s = beginFrame (.firstSending (nextReport s).sequence) (reportFrame (nextReport s))
      (formReport s) := by
  simp [boundary_ask hq hp, askNoticeOrReport, hn, hm, he]

theorem boundary_rest (hn : s.notices.queue = [])
    (hm : s.stream.window.find? (fun r => r.marked) = none) (he : eligible s = false) :
    boundary s = idleTx s := by
  simp [boundary_ask hq hp, askNoticeOrReport, hn, hm, he]

end Asks

/-- The boundary of a transmitter that sends nothing: what it leaves idle, nothing waits for. -/
theorem linkSound_boundary (he : Entrants s.cmd) (ha : Accounts (· ∈ heldSlots s.cmd) s.cmd .idle)
    (hp : s.cmd.resetPending.isSome → s.cmd.queue = [] ∧ s.cmd.awaits = [])
    (ht : InTurn (interpreterBusy s) s.cmd) : LinkSound (boundary s) := by
  have busy : interpreterBusy (boundary s) = interpreterBusy s := interpreterBusy_congr (by simp)
  have sends : (∃ src f v, boundary s = beginFrame src f v ∧ (∀ i, src ≠ .reply i) ∧ v.cmd = s.cmd) →
      LinkSound (boundary s) := by
    rintro ⟨src, f, v, e, hsrc, hv⟩
    have cmd : (boundary s).cmd = s.cmd := by rw [e]; simpa using hv
    have state : (boundary s).tx.state = .sending src f := by rw [e]; rfl
    exact ⟨cmd ▸ he, by rw [cmd, state]; exact ha.ofNoSlot hsrc, cmd ▸ hp, by rw [cmd, busy]; exact ht,
      .of_not_idle (by simp [state])⟩
  have rests : boundary s = idleTx s → s.cmd.replyQueue = [] → (s.cmd.resetPending = none →
      s.notices.queue = [] ∧ ∀ r ∈ s.stream.window, r.marked = false) → LinkSound (boundary s) := by
    intro e hq hn
    rw [e] at busy ⊢
    exact ⟨he, ha, hp, busy ▸ ht, ⟨fun _ _ => hq, fun _ _ hr => hn hr⟩⟩
  cases hq : s.cmd.replyQueue with
  | cons i rest =>
    obtain ⟨r, hr⟩ := (ha.filled i).2 (by simp [hq])
    have e := boundary_reply hq hr
    rw [e] at busy ⊢
    refine ⟨he.sublist (.refl _) (.refl _), ha.beginReply hq hr, hp, ?_, .of_not_idle (by simp)⟩
    rw [busy]
    exact ht.congr rfl fun _ h => h
  | nil =>
    cases hpend : s.cmd.resetPending with
    | some o =>
      exact rests (boundary_drain hq (by simp [hpend])) hq fun h => absurd (hpend.symm.trans h) (by simp)
    | none =>
      cases hn : s.notices.queue with
      | cons n l => exact sends ⟨_, _, _, boundary_notice hq hpend hn, by simp, by simp⟩
      | nil =>
        cases hm : s.stream.window.find? (fun r => r.marked) with
        | some r => exact sends ⟨_, _, _, boundary_resend hq hpend hn hm, by simp, by simp⟩
        | none =>
          cases hel : eligible s with
          | true => exact sends ⟨_, _, _, boundary_report hq hpend hn hm hel, by simp, by simp⟩
          | false => exact rests (boundary_rest hq hpend hn hm hel) hq fun _ => ⟨hn, by simpa using hm⟩

/-! ## The end of a step -/

theorem LinkSound.takeBoundary (h : LinkSound s) (hi : s.tx.state = .idle) :
    LinkSound (takeBoundary s) := by
  refine linkSound_boundary h.entrants ?_ h.pending h.turn
  have := h.accounts
  rwa [hi] at this

theorem LinkSound.admitNotice (h : LinkSound s) (o : NoticeOffer) : LinkSound (admitNotice o s) := by
  unfold Machine.admitNotice
  dsimp only
  split
  · exact ⟨h.entrants, h.accounts, h.pending, h.turn, .of_told rfl⟩
  · exact h.congr rfl rfl rfl rfl rfl

theorem LinkSound.admitAll (h : LinkSound s) (l : List NoticeOffer) : LinkSound (admitAll l s) := by
  induction l generalizing s with
  | nil => exact h
  | cons o l ih => exact ih (h.admitNotice o)

theorem LinkSound.takeEndClaim (h : LinkSound s) (c : EndClaim) : LinkSound (takeEndClaim c s) := by
  cases c with
  | offer b =>
    show LinkSound (takeNextOffer b s)
    unfold takeNextOffer
    split
    · exact h
    · refine LinkSound.admitNotice ?_ _
      exact h.congr rfl rfl rfl rfl rfl
  | offers =>
    refine LinkSound.admitAll (s := s.withOffered []) ?_ _
    exact h.congr rfl rfl rfl rfl rfl
  | removal =>
    show LinkSound (takeRemoval s)
    unfold takeRemoval
    split
    · exact h
    · refine LinkSound.answerAwaits ?_ _ _
      exact h.congr rfl rfl rfl rfl rfl
  | removals => exact h.takeRemovals
  | boundary =>
    show LinkSound (answerTelling s)
    unfold answerTelling
    split
    · rename_i ht
      exact h.takeBoundary ht.2
    · exact h

theorem LinkSound.takeEndClaims (h : LinkSound s) (l : List EndClaim) : LinkSound (takeEndClaims l s) := by
  induction l generalizing s with
  | nil => exact h
  | cons c l ih => exact ih (h.takeEndClaim c)

theorem LinkSound.dropTelling (h : LinkSound s) : SlotsLegal (dropTelling s) := by
  refine slotsLegal_iff.2 ⟨?_, dropTelling_told s⟩
  unfold Machine.dropTelling
  split
  · exact h
  · rename_i hi
    exact ⟨h.entrants, h.accounts, h.pending, h.turn, .of_not_idle hi⟩

/-- The end of a step leaves the laws standing, whatever its ending names. -/
theorem LinkSound.settle (h : LinkSound s) : SlotsLegal (settle s) := by
  refine LinkSound.dropTelling (LinkSound.takeRemovals (LinkSound.takeEndClaims ?_ _))
  exact h.congr rfl rfl rfl rfl rfl

end Sys2Proof.Machine
end

section
/-! Every step keeps every reply slot accounted for: the commands, the events and the resets. -/

namespace Sys2Proof.Machine

variable {s t u : State} {c : QueuedCommand} {rest : List QueuedCommand}

/-! ## The commands -/

/-- The oldest command's reply is made (R164). -/
theorem LinkSound.answer (h : LinkSound s) (hc : s.cmd.queue = c :: rest)
    (hb : interpreterBusy s = false) (st : Status) (f : Payload) : LinkSound (answer c st f s) where
  entrants := h.entrants.sublist (.refl _) (.refl _)
  accounts := h.accounts.congr rfl rfl fun _ => Iff.rfl
  pending := h.pending
  turn := by
    have busy : interpreterBusy (Machine.answer c st f s) = false :=
      (interpreterBusy_congr (by simp)).trans hb
    rw [busy]
    exact .made (c := c) rfl (by simp [hc])
  idle := ⟨h.idle.replies, h.idle.notices⟩

theorem QuietFor.refl (s : State) : QuietFor s s := .of_eq rfl rfl rfl rfl

/-- Telling more of the transmitter changes nothing else. -/
theorem QuietFor.tell (h : QuietFor s u) : QuietFor s (tellIfEligible u) := by
  rw [tellIfEligible_eq]
  have untold : ∀ {b : Bool}, (u.tx.told || b) = false → u.tx.told = false := fun h => by
    simp only [Bool.or_eq_false_iff] at h
    exact h.1
  exact ⟨h.cmd, h.state, fun ht => h.told (untold ht), h.notices, fun hm ht => h.marks hm (untold ht)⟩

/-- Another stream of fewer marks. -/
theorem QuietFor.ofStream (hc : u.cmd = s.cmd) (ht : u.tx = s.tx)
    (hn : u.notices.queue = s.notices.queue)
    (hw : ∀ r ∈ u.stream.window, r ∈ s.stream.window) : QuietFor s u :=
  ⟨hc, by rw [ht], by rw [ht]; exact id, hn, fun hm _ r hr => hm r (hw r hr)⟩

theorem quietFor_enableStream (on : Bool) (hc : u.cmd = s.cmd) (ht : u.tx = s.tx)
    (hn : u.notices.queue = s.notices.queue) (hw : ∀ r ∈ u.stream.window, r ∈ s.stream.window) :
    QuietFor s (enableStream on u) := by
  unfold enableStream
  split
  · refine QuietFor.tell ?_
    exact .ofStream hc ht hn fun _ hr => nomatch hr
  · exact .ofStream hc ht hn hw
  · exact .ofStream hc ht hn hw
  · exact .ofStream hc ht hn fun _ hr => nomatch hr
  · refine QuietFor.tell ?_
    exact .ofStream hc ht hn hw
  · exact .ofStream hc ht hn hw

/-- RESET: every command and await is answered, and their slots are held no more (R173). -/
theorem LinkSound.beginReset (h : LinkSound s) (hc : s.cmd.queue = c :: rest)
    (hb : interpreterBusy s = false) (hp : s.cmd.progress = .notStarted) (o : ResetOption) :
    LinkSound (beginReset c o s) := by
  let l := (rest.map fun a => (a.slot, replyTo a .aborted []))
    ++ (s.cmd.awaits.map fun a => (a.slot, awaitReply a .aborted [])) ++ [(c.slot, replyTo c .ok [])]
  have chain : ∀ (a b : List (Fin 16 × Reply)) (w : State),
      fillSlots (a ++ b) w = fillSlots b (fillSlots a w) := by
    intro a b w
    induction a generalizing w with
    | nil => rfl
    | cons p a ih => exact ih _
  have filled : Machine.beginReset c o s = (fillSlots l s).withCmd { (fillSlots l s).cmd with
      queue := [], awaits := [], resetPending := some o } := by
    simp only [Machine.beginReset, l, chain, abortCommands_eq, answerEntries_eq, hc, List.tail_cons]
    rw [← abortCommands_eq, (abortCommands_cmd rest s).2.2]
    rfl
  have slots : l.map Prod.fst
      = (rest.map QueuedCommand.slot ++ s.cmd.awaits.map AwaitEntry.slot) ++ [c.slot] := by
    simp [l, Function.comp_def]
  have held : heldSlots s.cmd
      = c.slot :: (rest.map QueuedCommand.slot ++ s.cmd.awaits.map AwaitEntry.slot) := by
    simp [heldSlots, hc]
  have nodup := h.entrants.slots
  rw [held] at nodup
  have progress : (fillSlots l s).cmd.progress = s.cmd.progress := by
    have : ∀ (l : List (Fin 16 × Reply)) (w : State),
        (fillSlots l w).cmd.progress = w.cmd.progress := by
      intro l w
      induction l generalizing w with
      | nil => rfl
      | cons p l ih => exact ih _
    exact this l s
  have cmd : (Machine.beginReset c o s).cmd = { (fillSlots l s).cmd with
      queue := [], awaits := [], resetPending := some o } := by rw [filled]; rfl
  refine h.filled (l := l) ?_ ?_ (by rw [cmd]) (by rw [cmd]) (by rw [filled]; rfl) ?_ ?_ ?_ ?_ ?_ ?_
  · rw [slots]
    exact (List.perm_append_singleton ..).nodup_iff.2 nodup
  · intro i hi
    rw [slots, List.mem_append, List.mem_singleton] at hi
    rw [held, List.mem_cons]
    exact hi.symm
  · intro i
    rw [slots, held, cmd]
    simp only [heldSlots, List.map_nil, List.append_nil, List.not_mem_nil, false_iff, not_and,
      not_not]
    intro hi
    rw [List.mem_append, List.mem_singleton]
    exact (List.mem_cons.1 hi).symm
  · rw [cmd]
    exact List.nil_sublist _
  · rw [cmd]
    exact List.nil_sublist _
  · rw [cmd]
    exact fun _ => ⟨rfl, rfl⟩
  · rw [show interpreterBusy (Machine.beginReset c o s) = false from
      (interpreterBusy_congr (by simp)).trans hb]
    exact .notStarted (by rw [cmd]; exact progress.trans hp)
  · exact fun he => absurd he (by simp [l])

/-- AWAIT moves from the queue to the await list, with its tag and slot (R166). -/
theorem LinkSound.placeAwait (h : LinkSound s) (hc : s.cmd.queue = c :: rest)
    (hb : interpreterBusy s = false) (hp : s.cmd.progress = .notStarted)
    (hroom : s.cmd.awaits.length < Config.awaitCapacity) (x : Handle) (timeout : BitVec 16) :
    LinkSound (placeAwait c x timeout s) := by
  have queue : (Machine.placeAwait c x timeout s).cmd.queue = rest := by
    simp [Machine.placeAwait, hc]
  have perm : ∀ {α : Type} (a : α) (q w : List α), (q ++ (w ++ [a])).Perm (a :: q ++ w) :=
    fun a q w => by
      rw [← List.append_assoc]
      exact List.perm_append_singleton ..
  have slots : (heldSlots (Machine.placeAwait c x timeout s).cmd).Perm (heldSlots s.cmd) := by
    simp only [heldSlots, hc, Machine.placeAwait, withCmd_cmd, List.map_append, List.map_cons,
      List.map_nil]
    exact perm ..
  have tags : (usedTags (Machine.placeAwait c x timeout s).cmd).Perm (usedTags s.cmd) := by
    simp only [usedTags, hc, Machine.placeAwait, withCmd_cmd, List.map_append, List.map_cons,
      List.map_nil]
    exact perm ..
  refine ⟨⟨⟨?_, ?_⟩, slots.nodup_iff.2 h.entrants.slots, tags.nodup_iff.2 h.entrants.tags.1,
    fun hz => h.entrants.tags.2 (tags.mem_iff.1 hz)⟩, ?_, ?_, ?_, ⟨h.idle.replies, h.idle.notices⟩⟩
  · have := h.entrants.capacity.1
    rw [hc] at this
    rw [queue]
    exact (Nat.le_succ _).trans this
  · simpa [Machine.placeAwait] using hroom
  · exact h.accounts.congr rfl rfl fun i => slots.mem_iff
  · intro hr
    exact absurd ((h.pending hr).1.symm.trans hc) (by simp)
  · rw [show interpreterBusy (Machine.placeAwait c x timeout s) = false from
      (interpreterBusy_congr (by simp)).trans hb]
    exact .notStarted hp

/-- A rule that ends with a reply made for the command, having changed nothing that the slots' laws speak
of. -/
def AnswersQuietly (c : QueuedCommand) (s u : State) : Prop :=
  ∃ st f w, u = answer c st f w ∧ QuietFor s w ∧ w.triggers.claim = s.triggers.claim

theorem AnswersQuietly.link (ha : AnswersQuietly c s u) (h : LinkSound s)
    (hc : s.cmd.queue = c :: rest) (hb : interpreterBusy s = false) : LinkSound u := by
  obtain ⟨st, f, w, rfl, hq, hw⟩ := ha
  have busy := interpreterBusy_congr hw
  exact (h.quiet hq busy).answer (by rw [hq.cmd]; exact hc) (busy.trans hb) st f

theorem removeRecords_claim (e : EndReason) (v : Time) (l : List Record) (s : State) :
    (removeRecords e v l s).triggers.claim = s.triggers.claim := by
  induction l generalizing s with
  | nil => rfl
  | cons r l ih => exact (ih _).trans (by simp)

theorem walkAll_claim (v : Time) (l : List Record) (s : State) :
    (walkAll v l s).triggers.claim = s.triggers.claim := by
  induction l generalizing s with
  | nil => rfl
  | cons r l ih =>
    refine (ih _).trans ?_
    unfold walkRecord
    split <;> simp

/-- Every command but STATUS, RESET, AWAIT and TRIGGER_CLEAR answers at once. -/
theorem hostRule_answers {i : Instr} {k : Byte} {p : Payload} {go : Extent}
    (hf : frameOf i = some (k, p)) (hg : extentOf i = some go)
    (hk : k ∉ [kindStatus, kindReset, kindAwait, kindTriggerClear]) (c : QueuedCommand) (s : State) :
    AnswersQuietly c s (hostRule i c s) := by
  have same : ∀ st f, AnswersQuietly c s (answer c st f s) := fun st f => ⟨st, f, s, rfl, .refl s, rfl⟩
  cases i <;> simp only [frameOf, extentOf, reduceCtorEq, Option.some.injEq, Prod.mk.injEq] at hf hg
  case status | reset | await | triggerClear => exact absurd (hf.1 ▸ hk) (by simp)
  case start pin _ =>
    show AnswersQuietly c s (startRule pin c s)
    unfold startRule
    split
    · exact same _ _
    · split
      · exact same _ _
      · refine ⟨_, _, _, rfl, .of_eq (by simp) (by simp) (by simp) (by simp), ?_⟩
        exact (walkAll_claim ..).trans (by simp)
  case cancelLine line release _ =>
    show AnswersQuietly c s (cancelLineRule line release c s)
    unfold cancelLineRule
    split
    · refine ⟨_, _, _, rfl, .of_eq (by simp) (by simp) (by simp) (by simp), ?_⟩
      unfold releaseLine
      split
      · exact (congrArg TriggerTable.claim (setLine_keeps ..).2.2.2.2.1).trans (removeRecords_claim ..)
      · exact removeRecords_claim ..
    · exact same _ _
  case stream f _ =>
    show AnswersQuietly c s (streamRule f c s)
    unfold streamRule
    split
    · exact same _ _
    · split
      · exact same _ _
      · split
        · exact same _ _
        · exact ⟨_, _, _, rfl, quietFor_enableStream _ rfl rfl rfl fun _ hr => hr, by simp⟩
  all_goals
    simp only [hostRule, clockRule, setTimeRule, stopRule, gateRule, scheduleRule, cancelRule, lineRule,
      driveRule, channelRule, channelOffRule, channelStatusRule, samplerRule, windowRule, triggerRule,
      triggerArmRule, triggerStatusRule, readRule, releaseRule]
    repeat' split
  all_goals
    refine ⟨_, _, _, rfl, .of_eq (by simp) (by simp) (by simp) (by simp), ?_⟩
    simp [setTriggerSlot]

end Sys2Proof.Machine
end

section
/-! Every step keeps every reply slot accounted for: the rest of the commands, the events and the
resets. -/

namespace Sys2Proof.Machine

variable {s t u : State} {i : Instr}

/-! ## The Trigger Table's claim -/

/-- A visit ends with no claim or with a request: no TRIGGER_CLEAR is under way after it. -/
theorem visitSlots_busy (e : SourceEvent) (ks : List (Fin 16)) (s : State) :
    interpreterBusy (visitSlots e ks s) = false := by
  induction ks generalizing s with
  | nil => rfl
  | cons k ks ih =>
    unfold visitSlots
    split
    · split
      · exact ih s
      · split
        · rfl
        · split
          · exact ih _
          · rfl
    all_goals exact ih s

theorem takeBlockEvents_busy (bs : List EventBlock) (s : State) :
    interpreterBusy (takeBlockEvents bs s) = interpreterBusy s := by
  induction bs generalizing s with
  | nil => rfl
  | cons b bs ih =>
    refine (ih _).trans ?_
    unfold takeBlockEvent
    split
    · rfl
    · rename_i hc
      split
      · rfl
      · have idle : interpreterBusy s = false := by
          unfold interpreterBusy
          rw [show s.triggers.claim = none by simpa using hc]
        exact (visitSlots_busy ..).trans idle.symm

theorem fireAll_busy (t : Time) (rs : List Record) (vs : List TakenEvents) (s : State) :
    interpreterBusy (fireAll t rs vs s) = interpreterBusy s := by
  induction rs generalizing s vs with
  | nil => rfl
  | cons r rs ih =>
    refine (ih _ _).trans ?_
    rw [fireRecord_eq, takeBlockEvents_busy]
    have settled : ∀ w, interpreterBusy (settleRecord r t w) = interpreterBusy w := fun w =>
      interpreterBusy_congr (by
        rcases settleRecord_cases r t w with ⟨e, hs⟩ | ⟨rep, -, -, hs⟩ <;> rw [hs]
        · simp
        · rfl)
    rw [settled, takeBlockEvents_busy]
    exact interpreterBusy_congr (by simp)

theorem takePeriod_busy (vs : List TakenEvents) (s : State) :
    interpreterBusy (takePeriod vs s) = interpreterBusy s := by
  have ticked : ∀ s, interpreterBusy (tick vs s) = interpreterBusy s := fun s => by
    have fired := fireAll_busy (s.time.value + 1) (dueAt (s.time.value + 1) s) vs (tickBegun s)
    rw [tick_eq]
    dsimp only
    split <;> exact fired
  unfold takePeriod
  split
  · rfl
  all_goals
    split
    · exact ticked _
    · rfl

/-! ## The commands -/

/-- STATUS reads on, as the oldest command's readings are (R171). -/
theorem LinkSound.readOn {c : QueuedCommand} {rest : List QueuedCommand} (h : LinkSound s)
    (hc : s.cmd.queue = c :: rest) (hb : interpreterBusy s = false) (hk : c.kind = kindStatus)
    (go : Extent) : LinkSound (readOn go c s) := by
  unfold Machine.readOn
  dsimp only
  split
  · rename_i hlen
    refine ⟨h.entrants.sublist (.refl _) (.refl _), h.accounts.congr rfl rfl fun _ => Iff.rfl,
      h.pending, ⟨fun hz => absurd (hb.symm.trans hz) (by simp), fun made hm => ?_, fun r hr => ?_⟩,
      ⟨h.idle.replies, h.idle.notices⟩⟩
    · obtain rfl := Progress.reading.inj hm
      exact ⟨hlen, c, by simp [hc], hk⟩
    · exact nomatch hr
  · exact h.answer hc hb _ _

/-- A command whose execution makes neither readings nor a reply has not begun (R164). -/
theorem LinkSound.notStarted {c : QueuedCommand} {rest : List QueuedCommand} (h : LinkSound s)
    (hc : s.cmd.queue = c :: rest) (hk : c.kind ≠ kindStatus)
    (hr : ∀ r, s.cmd.progress ≠ .replying r) : s.cmd.progress = .notStarted := by
  cases hp : s.cmd.progress with
  | notStarted => rfl
  | replying r => exact absurd hp (hr r)
  | reading made =>
    obtain ⟨-, d, hd, hk'⟩ := h.turn.reading made hp
    rw [hc] at hd
    exact absurd (Option.some.inj hd ▸ hk') hk

/-- TRIGGER_CLEAR's claim, under which the interpreter starts no other command (R116). -/
theorem LinkSound.triggerClearRule {c : QueuedCommand} {rest : List QueuedCommand} (h : LinkSound s)
    (hc : s.cmd.queue = c :: rest) (hb : interpreterBusy s = false) (hk : c.kind = kindTriggerClear)
    (hp : s.cmd.progress = .notStarted) (slot disposal : Byte) :
    LinkSound (triggerClearRule slot disposal c s) := by
  unfold Machine.triggerClearRule
  split
  · split
    · exact h.answer hc hb _ _
    · rename_i k _ _ _ _ _ _ _ l _
      have emptied : LinkSound (setTriggerSlot k { s.triggers.slots[k] with use := .empty } s) :=
        h.congr rfl rfl rfl rfl rfl
      dsimp only
      split
      · exact ⟨h.entrants, h.accounts, h.pending,
          ⟨fun _ => ⟨hp, c, by simp [hc], hk⟩, fun _ hm => (nomatch hp.symm.trans hm),
            fun _ hr => nomatch hp.symm.trans hr⟩, ⟨h.idle.replies, h.idle.notices⟩⟩
      · exact emptied.answer hc hb _ _
  · exact h.answer hc hb _ _

/-- A command's rule keeps the slots' laws. -/
theorem LinkSound.hostRule {c : QueuedCommand} {rest : List QueuedCommand} {go : Extent}
    (h : LinkSound s) (hc : s.cmd.queue = c :: rest) (hb : interpreterBusy s = false)
    (hr : ∀ r, s.cmd.progress ≠ .replying r) (hf : frameOf i = some (c.kind, c.payload))
    (hg : extentOf i = some go) : LinkSound (hostRule i c s) := by
  by_cases hk : c.kind ∉ [kindStatus, kindReset, kindAwait, kindTriggerClear]
  · exact (hostRule_answers hf hg hk c s).link h hc hb
  · have begun : c.kind ≠ kindStatus → s.cmd.progress = .notStarted := fun hk =>
      h.notStarted hc hk hr
    have ofKind : ∀ {k : Byte} {p : Payload}, frameOf i = some (k, p) → c.kind = k := fun e =>
      (Prod.mk.inj (Option.some.inj (hf.symm.trans e))).1
    cases i
    case status g => exact h.readOn hc hb (ofKind rfl) g
    case reset o g =>
      show LinkSound (resetRule o c s)
      unfold resetRule
      split
      · exact h.answer hc hb _ _
      · exact h.beginReset hc hb (begun (by rw [ofKind rfl]; decide)) _
    case await gen slot timeout g =>
      show LinkSound (awaitRule gen slot timeout c s)
      unfold awaitRule
      split
      · exact h.answer hc hb _ _
      · split
        · exact h.answer hc hb _ _
        · split
          · exact h.answer hc hb _ _
          · rename_i hroom
            exact h.placeAwait hc hb (begun (by rw [ofKind rfl]; decide)) (Nat.lt_of_not_le hroom) _ _
    case triggerClear slot d g =>
      exact h.triggerClearRule hc hb (ofKind rfl) (begun (by rw [ofKind rfl]; decide)) slot d
    all_goals simp only [extentOf, reduceCtorEq, Option.some.injEq] at hg
    case triggerCancelRequest => exact nomatch hf
    all_goals exact absurd (by rw [ofKind rfl]; decide) hk

theorem LinkSound.hostClaim (h : LinkSound s) (hb : interpreterBusy s = false)
    (hu : HostClaim i s u) : LinkSound u := by
  cases hu with
  | fills => exact h.fillMade
  | refuses go hc => exact (h.answer hc hb _ _).goOn go
  | follows go hc hr hf hg => exact (h.hostRule hc hb hr hf hg).goOn go

/-! ## Frames received (R160 to R162) -/

theorem freeReplySlot_some {k : Fin 16} (h : freeReplySlot s = some k) : s.cmd.slots[k] = .free := by
  simpa using List.find?_some h

theorem LinkSound.loseFrame (h : LinkSound s) : LinkSound (loseFrame s) where
  entrants := h.entrants.sublist (.refl _) (.refl _)
  accounts := h.accounts.congr rfl rfl fun _ => Iff.rfl
  pending := h.pending
  turn := h.turn.congr rfl fun _ hc => hc
  idle := ⟨h.idle.replies, h.idle.notices⟩

theorem LinkSound.refuseFrame (h : LinkSound s) (st : Status) (tag kind : Byte) :
    LinkSound (refuseFrame st tag kind s) := by
  unfold Machine.refuseFrame
  split
  · exact h.loseFrame
  · rename_i k hk
    have free := freeReplySlot_some hk
    refine ⟨h.entrants.sublist (.refl _) (.refl _), ?_, h.pending, h.turn.congr rfl fun _ hc => hc,
      .of_told rfl⟩
    refine (h.accounts.fill ⟨replyKind kind, tag, [st.code]⟩ (.inr free)).congr rfl rfl fun j => ?_
    refine ⟨fun hj => ⟨hj, fun e => ?_⟩, fun hj => hj.1⟩
    subst e
    exact nomatch free.symm.trans ((h.accounts.reserved _).2 hj)

/-- A frame that meets no row of R160 joins the queue with a FREE slot of its own (R162). -/
theorem LinkSound.acceptFrame (h : LinkSound s) {tag kind : Byte} (p : Payload) (hz : tag ≠ 0)
    (hp : s.cmd.resetPending = none) (hroom : s.cmd.queue.length < Config.commandCapacity)
    (ht : tagInUse tag s = false) : LinkSound (acceptFrame tag kind p s) := by
  unfold Machine.acceptFrame
  split
  · exact h.loseFrame
  · rename_i k hk
    have free := freeReplySlot_some hk
    have unheld : k ∉ heldSlots s.cmd := fun hm =>
      nomatch free.symm.trans ((h.accounts.reserved k).2 hm)
    have fresh : tag ∉ usedTags s.cmd := by
      simp only [tagInUse, Bool.or_eq_false_iff, List.any_eq_false, decide_eq_true_eq] at ht
      simp only [usedTags, List.mem_append, List.mem_map, not_or, not_exists, not_and]
      exact ht
    have perm : ∀ {α : Type} (a : α) (q w : List α), (q ++ [a] ++ w).Perm (a :: (q ++ w)) :=
      fun a q w => (List.perm_append_singleton a q).append_right w
    have slots : (heldSlots { s.cmd with queue := s.cmd.queue ++ [⟨tag, kind, p, k⟩] }).Perm
        (k :: heldSlots s.cmd) := by
      simp only [heldSlots, List.map_append, List.map_cons, List.map_nil]
      exact perm ..
    have tags : (usedTags { s.cmd with queue := s.cmd.queue ++ [⟨tag, kind, p, k⟩] }).Perm
        (tag :: usedTags s.cmd) := by
      simp only [usedTags, List.map_append, List.map_cons, List.map_nil]
      exact perm ..
    refine ⟨⟨⟨?_, h.entrants.capacity.2⟩, ?_, ?_, ?_⟩, ?_, ?_, ?_, ⟨h.idle.replies, h.idle.notices⟩⟩
    · simpa using hroom
    · exact slots.nodup_iff.2 (List.nodup_cons.2 ⟨unheld, h.entrants.slots⟩)
    · exact tags.nodup_iff.2 (List.nodup_cons.2 ⟨fresh, h.entrants.tags.1⟩)
    · exact fun hm => (List.mem_cons.1 (tags.mem_iff.1 hm)).elim (fun e => hz e.symm) h.entrants.tags.2
    · refine Accounts.congr (b := { s.cmd with slots := s.cmd.slots.set k .reserved })
        (h.accounts.reserve free rfl rfl) rfl rfl fun j => ?_
      exact (slots.mem_iff (a := j)).trans (List.mem_cons.trans or_comm)
    · exact fun hr => absurd (hp ▸ hr) (by simp)
    · exact h.turn.congr rfl fun c hc => by simp [hc]

theorem LinkSound.sortFrame (h : LinkSound s) (tag kind : Byte) (p : Payload) :
    LinkSound (sortFrame tag kind p s) := by
  unfold Machine.sortFrame
  split
  · exact ⟨h.entrants.sublist (.refl _) (.refl _), h.accounts.congr rfl rfl fun _ => Iff.rfl,
      h.pending, h.turn.congr rfl fun _ hc => hc, ⟨h.idle.replies, h.idle.notices⟩⟩
  · rename_i hz
    split
    · exact h.congr rfl rfl rfl rfl rfl
    · split
      · exact h.refuseFrame ..
      · rename_i hp
        split
        · exact h.refuseFrame ..
        · split
          · exact h.refuseFrame ..
          · rename_i hroom
            split
            · exact h.refuseFrame ..
            · rename_i ht
              exact h.acceptFrame p hz (by simpa using hp) (Nat.lt_of_not_le hroom) (by simpa using ht)

theorem LinkSound.linkError (h : LinkSound s) (k : LinkErrorKind) : LinkSound (linkError k s) :=
  h.congr rfl rfl rfl rfl rfl

theorem LinkSound.takeByte (h : LinkSound s) (b : Byte) : LinkSound (takeByte b s) := by
  have rx : ∀ r, LinkSound (s.withRx r) := fun r => h.congr rfl rfl rfl rfl rfl
  unfold Machine.takeByte
  dsimp only
  split
  · split
    · exact rx _
    · exact h
  · split
    · exact h.linkError _
    · exact rx _
  · exact rx _
  · exact rx _
  · exact rx _
  · exact rx _
  · split
    · exact LinkSound.sortFrame (rx _) ..
    · exact h.linkError _

theorem LinkSound.takeChar (h : LinkSound s) (c : RxChar) : LinkSound (takeChar c s) := by
  have rx : ∀ v, LinkSound (stopBit v s) := fun v => h.congr rfl rfl rfl rfl rfl
  unfold Machine.takeChar
  split
  · exact (rx _).takeByte _
  · split
    · exact rx _
    · exact h

/-! ## The report stream and the transmitter -/

theorem LinkSound.tell (h : LinkSound s) : LinkSound (tellIfEligible s) :=
  h.quiet (.tell (.refl s)) (interpreterBusy_congr (by simp))

theorem LinkSound.takeAck (h : LinkSound s) (q : Byte) : LinkSound (takeAck q s) := by
  have stale : LinkSound (staleAck s) := h.congr rfl rfl rfl rfl rfl
  unfold Machine.takeAck
  split
  · exact stale
  · exact stale
  · split
    · exact stale
    · rename_i acked rest hw
      refine LinkSound.tell ?_
      refine h.quiet ?_ rfl
      refine .ofStream rfl rfl rfl fun r hr => ?_
      rw [splitWindow_some hw]
      exact List.mem_append_right _ hr

theorem LinkSound.markWindow (h : LinkSound s) : LinkSound (markWindow s) := by
  refine h.quiet ⟨rfl, rfl, fun ht => ?_, rfl, fun _ ht r hr => ?_⟩ rfl
  · exact (Bool.or_eq_false_iff.1 ht).1
  · have : s.stream.window = [] := by simpa using (Bool.or_eq_false_iff.1 ht).2
    rw [show (Machine.markWindow s).stream.window = s.stream.window.map Report.mark from rfl, this]
      at hr
    exact nomatch hr

/-- A frame's end frees a reply's slot, and the boundary follows (R190). -/
theorem LinkSound.endSending (h : LinkSound s) {src : FrameSource} {f : Frame}
    (hs : s.tx.state = .sending src f) : LinkSound (Machine.takeBoundary (tellSent src (idleTx s))) := by
  have accounts := h.accounts
  rw [hs] at accounts
  have sent := accounts.sent
  cases src with
  | reply i =>
    exact linkSound_boundary (h.entrants.sublist (.refl _) (.refl _)) sent h.pending
      (h.turn.congr rfl fun _ hc => hc)
  | notice | firstSending _ | resend _ => exact linkSound_boundary h.entrants sent h.pending h.turn

/-! ## Resets -/

theorem linkSound_reset : LinkSound State.reset := (slotsLegal_iff.1 reset_slotsLegal).1

/-- A transmitter that is to stand idle a character time has nothing to send of its own. -/
theorem LinkSound.ofReset (hc : u.cmd = State.reset.cmd) (ht : u.triggers = State.reset.triggers)
    (hx : u.tx.state = .postReset ∨ u.tx.state = .idle ∧ u.tx.told = true) : LinkSound u where
  entrants := hc ▸ linkSound_reset.entrants
  accounts := by
    refine ⟨?_, ?_, ?_, fun j r => ?_⟩
    · exact hc ▸ linkSound_reset.accounts.reserved
    · exact hc ▸ linkSound_reset.accounts.queued
    · exact hc ▸ linkSound_reset.accounts.filled
    · rw [hc, linkSound_reset.accounts.sending j r]
      rcases hx with e | ⟨e, -⟩ <;> rw [e] <;> exact ⟨fun h => (nomatch h), fun h => (nomatch h)⟩
  pending := hc ▸ linkSound_reset.pending
  turn := by
    rw [hc, show interpreterBusy u = interpreterBusy State.reset from
      interpreterBusy_congr (congrArg _ ht)]
    exact linkSound_reset.turn
  idle := hx.elim (fun e => .of_not_idle (by simp [e])) fun e => .of_told e.2

/-! ## The events -/

/-- The timed await that leaves the list with its timeout. -/
theorem LinkSound.awaitTimeout (h : LinkSound s) {tag : Byte} {a : AwaitEntry}
    (ha : timedAwait tag s = some a) (hu : eventOf (.awaitTimeout tag) s = some u) : LinkSound u := by
  have mem : a ∈ s.cmd.awaits := List.mem_of_find?_eq_some ha
  have nodup := h.entrants.awaits_slots
  simp only [Machine.eventOf, ha, Option.map_some, Option.some.injEq] at hu
  subst hu
  have gone : ∀ i, i ∈ (s.cmd.awaits.erase a).map AwaitEntry.slot
      ↔ i ∈ s.cmd.awaits.map AwaitEntry.slot ∧ i ≠ a.slot := by
    intro i
    rw [(nodup.of_map _).erase_eq_filter]
    have single : (s.cmd.awaits.filter (· == a)).map AwaitEntry.slot = [a.slot] := by
      rw [List.filter_beq, List.count_eq_one_of_mem (nodup.of_map _) mem]
      rfl
    have := mem_slots_filter nodup (· == a) i
    rw [single, List.mem_singleton] at this
    exact this
  refine h.filled (l := [(a.slot, awaitReply a .timeout [])]) (by simp) ?_ rfl rfl rfl ?_ (.refl _)
    ?_ ?_ (h.turn.congr rfl fun _ hc => hc) (by simp)
  · intro i hi
    obtain rfl : i = a.slot := by simpa using hi
    exact mem_heldSlots.2 (.inr (List.mem_map_of_mem mem))
  · intro i
    have apart : i ∈ s.cmd.queue.map QueuedCommand.slot → i ≠ a.slot := fun hi e =>
      (List.nodup_append.1 h.entrants.slots).2.2 i hi a.slot (List.mem_map_of_mem mem) e
    rw [mem_heldSlots, mem_heldSlots]
    simp only [withCmd_cmd, fillSlot_cmd_rest, reach_keeps, gone, List.map_cons, List.map_nil,
      List.mem_singleton]
    tauto
  · exact List.erase_sublist
  · intro hp
    exact absurd mem (by simp [(h.pending hp).2])

/-- An event keeps the slots' laws. -/
theorem LinkSound.eventOf (h : LinkSound s) (hu : eventOf i s = some u) : LinkSound u := by
  have kept : u.cmd = s.cmd → u.tx = s.tx → u.notices.queue = s.notices.queue →
      u.stream.window = s.stream.window → interpreterBusy u = interpreterBusy s → LinkSound u :=
    fun hc ht hn hs hb => h.quiet (.of_eq hc ht hn hs) hb
  cases i
  all_goals simp only [Machine.eventOf, reduceCtorEq] at hu
  case awaitTimeout tag =>
    obtain ⟨a, ha, -⟩ := Option.map_eq_some_iff.1 hu
    exact h.awaitTimeout ha hu
  case ack q =>
    have taken : ∀ l, LinkSound (s.withHanded { s.handed with acks := l }) := fun l =>
      h.congr rfl rfl rfl rfl rfl
    split at hu
    · cases hu
    · split at hu
      · cases hu
        exact h.congr rfl rfl rfl rfl rfl
      · split at hu <;> cases hu
        exact (taken _).takeAck q
  case tickClockPeriod pin vs =>
    split at hu <;> cases hu
    refine kept (by simp) (by simp) (by simp) (by simp) ?_
    exact takePeriod_busy ..
  case channelSample n pin =>
    split at hu
    · cases hu
    · obtain ⟨_, -, rfl⟩ := Option.map_eq_some_iff.1 hu
      exact kept (by simp) (by simp) (by simp) (by simp) (interpreterBusy_congr (by simp))
  case stampOffer b =>
    obtain ⟨_, -, rfl⟩ := Option.map_eq_some_iff.1 hu
    split
    · exact LinkSound.tell (h.congr rfl rfl rfl rfl rfl)
    · exact h.congr rfl rfl rfl rfl rfl
  case triggerSourceEvent b =>
    split at hu
    · cases hu
    · rename_i hc
      obtain ⟨e, -, rfl⟩ := Option.map_eq_some_iff.1 hu
      have idle : interpreterBusy s = false := by
        unfold interpreterBusy
        rw [show s.triggers.claim = none by simpa using hc]
      exact kept (by simp) (by simp) (by simp) (by simp) ((visitSlots_busy ..).trans idle.symm)
  case triggerAdmissionRequest | replacementAdmission =>
    split at hu
    · rename_i hc
      have idle : interpreterBusy s = false := by
        unfold interpreterBusy
        rw [hc]
      split at hu <;> cases hu
      exact kept (by simp) (by simp) (by simp) (by simp) ((visitSlots_busy ..).trans idle.symm)
    all_goals cases hu
  case triggerCancelRequest go =>
    split at hu
    · rename_i x rest n hc
      have busy : interpreterBusy s = true := by
        unfold interpreterBusy
        rw [hc]
      obtain ⟨hp, c, hq, hk⟩ := h.turn.clearing busy
      obtain ⟨queue, hq⟩ := List.head?_eq_some_iff.1 hq
      split at hu <;> cases hu
      · refine LinkSound.goOn ?_ go
        have cleared : LinkSound (setClaim none (cancelHandle x s)) :=
          ⟨by simpa using h.entrants, by simpa using h.accounts, by simpa using h.pending,
            .notStarted (by simpa using hp), h.idle.quiet (.of_eq (by simp) (by simp) (by simp) (by simp))⟩
        unfold endClear
        split
        · exact cleared
        · rename_i hq'
          exact cleared.answer hq' rfl _ _
      · exact kept (by simp) (by simp) (by simp) (by simp) busy.symm
    all_goals cases hu
  case holdTimeReached =>
    split at hu
    · cases hu
    · split at hu <;> cases hu
      exact LinkSound.tell (h.congr rfl rfl rfl rfl rfl)
  case retransmitExpiry =>
    obtain ⟨m, -, rfl⟩ := Option.map_eq_some_iff.1 hu
    have reached : LinkSound (reach m s) := h.congr rfl rfl rfl rfl rfl
    split
    · exact reached.markWindow
    · exact h.quiet (.ofStream rfl rfl rfl fun _ hr => nomatch hr) rfl
  case frameReceived c | lengthError c =>
    split at hu <;> cases hu
    exact h.takeChar c
  case byteTaken c =>
    cases hu
    exact h.takeChar c
  case gapExpiry =>
    split at hu
    · cases hu
    · split at hu <;> cases hu
      refine LinkSound.linkError ?_ _
      exact h.congr rfl rfl rfl rfl rfl
  case endOfTransmission =>
    split at hu <;> cases hu
    rename_i hs
    exact h.endSending hs
  case postResetIdleEnd =>
    split at hu <;> cases hu
    rename_i hs
    refine linkSound_boundary h.entrants ⟨h.accounts.reserved, h.accounts.queued, h.accounts.filled,
      fun j r => (h.accounts.sending j r).trans ?_⟩ h.pending h.turn
    rw [hs]
    exact ⟨fun e => (nomatch e), fun e => (nomatch e)⟩
  case resetApplies =>
    split at hu
    · cases hu
    · split at hu <;> cases hu
      rename_i hd
      refine .ofReset rfl rfl (.inr ⟨?_, rfl⟩)
      simp only [drained, Bool.and_eq_true, decide_eq_true_eq] at hd
      exact hd.2
  case recoveryEnd =>
    obtain ⟨_, -, rfl⟩ := Option.map_eq_some_iff.1 hu
    split <;> exact h.congr rfl rfl rfl rfl rfl
  case endOfAcquisition | endOfConversion =>
    split at hu <;> cases hu
    exact h.congr (by simp) (by simp) (by simp) (by simp) (by simp)
  case sourcePeriod =>
    split at hu <;> cases hu
    exact h.congr rfl rfl rfl rfl rfl

/-! ## Every step -/

theorem SlotsLegal.exec (h : SlotsLegal s) (hr : HeldAtReset s) (he : exec i s = .next t) :
    SlotsLegal t := by
  have sound := (slotsLegal_iff.1 h).1
  rcases exec_next he with rfl | ⟨-, hb, u, hu, rfl⟩ | ⟨-, u, hu, rfl⟩ | hd
  · exact h
  · exact (sound.hostClaim hb hu).settle
  · exact (sound.eventOf hu).settle
  · rcases deviceReset_next hd he with rfl | ⟨hup, -, e⟩ | ⟨hb, -⟩
    · exact h
    · have held := hr hup
      have tx : t.tx = State.reset.tx := by rw [e, held]; rfl
      refine slotsLegal_iff.2 ⟨.ofReset ?_ ?_ (.inl (by rw [tx]; rfl)), by simp [tx]; exact nofun⟩
      · rw [e, held]; rfl
      · rw [e, held]; rfl
    · refine slotsLegal_iff.2 ⟨.ofReset hb.cmd hb.triggers (.inl (by rw [hb.tx]; rfl)), ?_⟩
      rw [hb.tx]
      exact nofun

/-- Settles O59: each claim keeps the accounts of the slots, and the end of the step leaves nothing
waiting for a transmitter that is idle and untold. -/
theorem everyStepKeepsEverySlotAccountedFor : Obligations.EveryStepKeepsEverySlotAccountedFor := by
  intro s t hs hr h
  obtain ⟨sound, told⟩ := slotsLegal_iff.1 hs
  unfold step at h
  split at h
  · have later : LinkSound (s.withNow (s.now + 1)) := sound.congr rfl rfl rfl rfl rfl
    simp only [passTime, finish] at h
    split at h <;> cases h
    · exact slotsLegal_iff.2 ⟨later, told⟩
    · exact later.settle
  · rename_i i rest _
    have hs' : SlotsLegal (s.withPending rest) :=
      slotsLegal_iff.2 ⟨sound.congr rfl rfl rfl rfl rfl, told⟩
    exact hs'.exec (hr.withPending rest) h

end Sys2Proof.Machine
end

section
/-! Every host command alike: how its step is carried on, what it answers out of range, and when it does
not take place (R164, R196, R197). -/

namespace Sys2Proof.Machine

variable {i : Instr} {c : QueuedCommand} {s u t : State}

/-! ## The interpreter -/

/-- A reply filled does not depend on how far the execution before it had come. -/
theorem Filled.of_setProgress {m : Reply} {p : Progress} (h : Filled c m (setProgress p u) t) :
    Filled c m u t where
  blocks := by rw [h.blocks]; rfl
  reply := h.reply
  queue := by simpa using h.queue
  progress := h.progress
  others := by simpa using h.others
  awaits := by simpa using h.awaits
  resetPending := by simpa using h.resetPending
  counts := by simpa using h.counts
  waits := by simpa using h.waits
  notices := by
    obtain ⟨l, hl, hn⟩ := h.notices
    exact ⟨l, by simpa using hl, hn.trans (admitAll_notices l (by simp))⟩
  endings := by simpa using h.endings

/-- An answer that the step goes on to fill answers its command. -/
theorem answered_of_answer (ho : u.cmd.queue.head? = some c) (st : Status) (f : Payload) :
    ∃ t, finish (fillMade (answer c st f u)) = .next t ∧ Answered c st f u t := by
  obtain ⟨t, ht, h⟩ := finish_fillMade (c := c) (m := replyTo c st f) (s := answer c st f u)
    (by simp) (by simpa using ho)
  rw [answer, takeRemovals_setProgress] at h
  exact ⟨t, ht, h.of_setProgress⟩

section Interpreter

variable {ready : State → Bool} {k : Byte} {p : Payload} {rule : QueuedCommand → State → State}
  {go : Extent}

/-- A command of the wrong length is answered BAD_LENGTH (R164 step 1). -/
theorem interpretWhen_badLength (h : MayStart s) (ho : s.cmd.queue.head? = some c) (hk : c.kind = k)
    (hl : c.payload.length ≠ p.length) :
    interpretWhen ready k p rule go s = finish (goOn go (answer c .badLength [] s)) := by
  obtain ⟨rest, hq⟩ := List.head?_eq_some_iff.1 ho
  simp [interpretWhen, whileUp, h.up, h.free, h.fresh, hq, hk, hl]

/-- A command in execution that has made no reply yet goes on with its rule. -/
theorem interpretWhen_runs (hup : s.pins.resetActive = false) (hb : interpreterBusy s = false)
    (ho : s.cmd.queue.head? = some c) (hk : c.kind = k) (hp : c.payload = p)
    (hm : ∀ r, s.cmd.progress ≠ .replying r) (hr : ready s = true) :
    interpretWhen ready k p rule go s = finish (goOn go (rule c s)) := by
  subst hk hp
  obtain ⟨rest, hq⟩ := List.head?_eq_some_iff.1 ho
  cases hg : s.cmd.progress with
  | replying r => exact absurd hg (hm r)
  | notStarted => simp [interpretWhen, whileUp, hup, hb, hg, hq, hr]
  | reading l => simp [interpretWhen, whileUp, hup, hb, hg, hq, hr]

/-- A reply made fills its slot in the command's next step (R164 step 3). -/
theorem interpretWhen_fills {r : Reply} (hup : s.pins.resetActive = false)
    (hb : interpreterBusy s = false) (ho : s.cmd.queue.head? = some c) (hk : c.kind = k)
    (hl : p = c.payload ∨ p.length ≠ c.payload.length) (hm : s.cmd.progress = .replying r) :
    interpretWhen ready k p rule go s = finish (fillMade s) := by
  obtain ⟨rest, hq⟩ := List.head?_eq_some_iff.1 ho
  have hl' : ¬(c.payload.length = p.length ∧ c.payload ≠ p) := fun ⟨h1, h2⟩ =>
    hl.elim (fun e => h2 e.symm) (fun e => e h1.symm)
  simp [interpretWhen, whileUp, hup, hb, hm, hq, hk, hl']

/-- A command that is not the oldest does not take place. -/
theorem interpretWhen_outOfTurn (h : s.pins.resetActive = true ∨ interpreterBusy s = true
      ∨ s.cmd.queue = [] ∨ ∃ c, s.cmd.queue.head? = some c
        ∧ (c.kind ≠ k ∨ c.payload.length = p.length ∧ c.payload ≠ p)) :
    interpretWhen ready k p rule go s = .next s := by
  rcases h with hup | hb | hq | ⟨c, ho, hd⟩
  · simp [interpretWhen, whileUp, noStep, hup]
  · simp [interpretWhen, whileUp, noStep, hb]
  · simp [interpretWhen, whileUp, noStep, hq]
  · obtain ⟨rest, hq⟩ := List.head?_eq_some_iff.1 ho
    by_cases hk : c.kind = k
    · have hp := hd.resolve_left (not_not.2 hk)
      simp [interpretWhen, whileUp, noStep, hq, hk, hp]
    · simp [interpretWhen, whileUp, noStep, hq, hk]

/-- A command whose claim must wait does not take place. -/
theorem interpretWhen_waits (ho : s.cmd.queue.head? = some c) (hl : c.payload.length = p.length)
    (hm : ∀ r, s.cmd.progress ≠ .replying r) (hr : ready s = false) :
    interpretWhen ready k p rule go s = .next s := by
  obtain ⟨rest, hq⟩ := List.head?_eq_some_iff.1 ho
  cases hg : s.cmd.progress with
  | replying r => exact absurd hg (hm r)
  | notStarted => simp [interpretWhen, whileUp, noStep, hq, hg, hl, hr]
  | reading l => simp [interpretWhen, whileUp, noStep, hq, hg, hl, hr]

end Interpreter

/-! ## A command that executes -/

section Executing

variable {i : Extent → Instr}

/-- A host command that executes, and need not wait, follows its rule. -/
theorem Executes.exec (h : Executes i c s) (go : Extent) (ready : hostReady (i go) s = true) :
    exec (i go) s = finish (goOn go (hostRule (i go) c s)) :=
  (exec_host (h.frame go) (h.extent go) s).trans
    (interpretWhen_executes go h.may.start h.oldest rfl rfl ready)

/-- A host command whose rule ends in an answer gives that answer. -/
theorem Executes.replies {st : Status} {f : Payload} (h : Executes i c s)
    (ready : ∀ go, hostReady (i go) s = true) (rule : ∀ go, hostRule (i go) c s = answer c st f u)
    (queue : u.cmd.queue = s.cmd.queue) : Replies i s c st f u :=
  replies_of_answer (fun go => rule go ▸ h.exec go (ready go)) (queue ▸ h.oldest)

/-- A command of the Trigger Table that executes finds no claim of it in progress (R103). -/
theorem Executes.unclaimed (h : Executes i c s) (hk : c.kind ∈ triggerKinds) :
    s.triggers.claim.isNone = true := by
  simp [h.may.table hk]

end Executing

/-! ## Fields out of range (R197) -/

/-- What is not read is none. -/
theorem eq_none_of_isSome {α : Type} {o : Option α} (h : o.isSome = false) : o = none := by
  simpa using h

theorem readPrescaler_isSome (b : Byte) :
    (readPrescaler b).isSome = decide (b.toNat ∈ [1, 2, 4, 8, 16, 32, 64, 128]) := by
  unfold readPrescaler
  split <;> simp_all

theorem readResetOption_isSome (b : Byte) : (readResetOption b).isSome = decide (b.toNat ≤ 1) := by
  rcases byte_cases b with rfl | rfl | h
  · rfl
  · rfl
  · unfold readResetOption
    split <;> simp_all

theorem readTarget_isSome (b : Byte) :
    (readTarget b).isSome = decide (b.toNat = 1 ∨ b.toNat = 2) := by
  unfold readTarget
  split <;> simp_all

/-- Fields that some reader does not read are not both read. -/
theorem not_both {α β : Type} {x : Option α} {y : Option β} {a : α} {b : β}
    (h : (x.isSome && y.isSome) = false) (hx : x = some a) (hy : y = some b) : False := by
  simp [hx, hy] at h

/-- A command with a field out of its range is answered BAD_FIELD. -/
theorem hostRule_badField (hf : frameOf i ≠ none) (hw : wellFormed i = false) (c : QueuedCommand)
    (s : State) : hostRule i c s = answer c .badField [] s := by
  cases i
  case clock source prescaler _ =>
    have bad : ((readSource source).isSome && (readPrescaler prescaler).isSome) = false := by
      rw [readSource_isSome, readPrescaler_isSome]
      exact hw
    show clockRule source prescaler c s = _
    unfold clockRule
    split
    · exact (not_both bad ‹_› ‹_›).elim
    · rfl
  case setTime value _ =>
    have bad : value.toNat = Config.maxTime := by simpa [wellFormed] using hw
    exact if_pos bad
  case gate gating polarity pin _ =>
    have bad : ((readYesNo gating).isSome && (readLevel polarity).isSome) = false := by
      simpa [wellFormed] using hw
    show gateRule gating polarity pin c s = _
    unfold gateRule
    split
    · exact (not_both bad ‹_› ‹_›).elim
    · rfl
  case schedule f _ =>
    have bad : ((readBody f.action).isSome && (readDueMode f.dueMode).isSome) = false := by
      rw [readBody_isSome, readDueMode, readYesNo_isSome]
      exact hw
    show scheduleRule f c s = _
    unfold scheduleRule
    split
    · exact (not_both bad ‹_› ‹_›).elim
    · rfl
  case cancel gen slot _ =>
    have bad : readHandle gen slot = none := eq_none_of_isSome ((readHandle_isSome ..).trans hw)
    show cancelRule gen slot c s = _
    simp [cancelRule, bad]
  case await gen slot timeout _ =>
    have bad : readHandle gen slot = none := eq_none_of_isSome ((readHandle_isSome ..).trans hw)
    show awaitRule gen slot timeout c s = _
    simp [awaitRule, bad]
  case cancelLine line release _ =>
    have bad : ((readIndex 8 line).isSome && (readYesNo release).isSome) = false := by
      simpa [wellFormed, Nat.lt_succ_iff] using hw
    show cancelLineRule line release c s = _
    unfold cancelLineRule
    split
    · exact (not_both bad ‹_› ‹_›).elim
    · rfl
  case reset o _ =>
    have bad : readResetOption o = none := eq_none_of_isSome ((readResetOption_isSome o).trans hw)
    show resetRule o c s = _
    simp [resetRule, bad]
  case line line mode idle _ =>
    show lineRule line mode idle c s = _
    unfold lineRule
    split
    · rename_i n m l hn hm hl
      have bad : ((readIndex 8 line).isSome
          && ((readLineMode mode).isSome && (readLevel idle).isSome)) = false := by
        simpa [wellFormed, Nat.lt_succ_iff] using hw
      simp [hn, hm, hl] at bad
    · rfl
  case drive line level _ =>
    refine driveRule_badField c s ?_
    simp only [wellFormed, decide_eq_false_iff_not] at hw
    omega
  case channel f pin go =>
    have bad : readChannel f = none := eq_none_of_isSome ((readChannel_isSome f pin go).trans hw)
    show channelRule f pin c s = _
    simp [channelRule, bad]
  case channelOff channel _ =>
    have bad : readIndex 8 channel = none :=
      eq_none_of_isSome (by simpa [wellFormed, Nat.lt_succ_iff] using hw)
    show channelOffRule channel c s = _
    simp [channelOffRule, bad]
  case channelStatus channel _ =>
    have bad : readIndex 8 channel = none :=
      eq_none_of_isSome (by simpa [wellFormed, Nat.lt_succ_iff] using hw)
    show channelStatusRule channel c s = _
    simp [channelStatusRule, bad]
  case sampler enable acquisition _ =>
    have bad : ((readYesNo enable).isSome && (readRange 2 255 acquisition.toNat).isSome) = false := by
      have := acquisition.isLt
      have le : acquisition.toNat ≤ 255 := by omega
      simpa [wellFormed, le] using hw
    show samplerRule enable acquisition c s = _
    unfold samplerRule
    split
    · exact (not_both bad ‹_› ‹_›).elim
    · rfl
  case window input low high queue go =>
    have bad : readWindow input low high queue = none :=
      eq_none_of_isSome ((readWindow_isSome input low high queue go).trans hw)
    show windowRule input low high queue c s = _
    simp [windowRule, bad]
  case trigger f go =>
    have bad : readTriggerDef f = none := eq_none_of_isSome ((readTriggerDef_isSome f go).trans hw)
    show triggerRule f c s = _
    simp [triggerRule, bad]
  case triggerArm slot target _ =>
    have bad : ((readIndex 16 slot).isSome && (readTarget target).isSome) = false := by
      rw [readTarget_isSome]
      simpa [wellFormed, Nat.lt_succ_iff] using hw
    show triggerArmRule slot target c s = _
    unfold triggerArmRule
    split
    · exact (not_both bad ‹_› ‹_›).elim
    · rfl
  case triggerClear slot disposal _ =>
    have bad : ((readIndex 16 slot).isSome && (readYesNo disposal).isSome) = false := by
      simpa [wellFormed, Nat.lt_succ_iff] using hw
    show triggerClearRule slot disposal c s = _
    unfold triggerClearRule
    split
    · exact (not_both bad ‹_› ‹_›).elim
    · rfl
  case triggerStatus slot _ =>
    have bad : readIndex 16 slot = none :=
      eq_none_of_isSome (by simpa [wellFormed, Nat.lt_succ_iff] using hw)
    show triggerStatusRule slot c s = _
    simp [triggerStatusRule, bad]
  case stream f _ =>
    show streamRule f c s = _
    unfold streamRule
    split
    · rfl
    · rename_i on hon
      have enabled : f.enable.toNat ≤ 1 := by
        simpa [hon] using (readYesNo_isSome f.enable).symm
      have bad : streamInRange f = false := by
        simp only [wellFormed, decide_eq_false_iff_not] at hw
        by_contra hr
        simp only [streamInRange, Bool.not_eq_false, Bool.and_eq_true, decide_eq_true_eq] at hr
        omega
      simp [bad]
  case read n _ =>
    have bad : readRange 1 8 n.toNat = none := eq_none_of_isSome ((readRange_isSome ..).trans hw)
    show readRule n c s = _
    simp [readRule, bad]
  all_goals simp only [wellFormed, frameOf, ne_eq, reduceCtorEq, not_true_eq_false] at hw hf

/-! ## The statements -/

/-- Settles O7: the interpreter looks at the length first. -/
theorem wrongLengthIsAnsweredBadLength : Obligations.WrongLengthIsAnsweredBadLength := by
  intro i k p c s hi _ hm ho hk hl
  refine replies_of_answer (fun go => ?_) ho
  exact (exec_host (hi go).1 (hi go).2 s).trans (interpretWhen_badLength hm ho hk hl)

/-- A command with a field out of its range does not wait for samples; one of the Trigger Table that
executes finds no claim. -/
theorem Executes.ready_of_badField {i : Extent → Instr} (h : Executes i c s) {go : Extent}
    (hw : wellFormed (i go) = false) : hostReady (i go) s = true := by
  have unclaimed := fun hk => h.unclaimed hk
  have frame := h.frame go
  cases hi : i go <;> rw [hi] at hw frame <;> try rfl
  case setTime value _ =>
    have bad : value.toNat = Config.maxTime := by simpa [wellFormed] using hw
    simp [hostReady, bad]
  all_goals
    simp only [frameOf, Option.some.injEq, Prod.mk.injEq] at frame
    exact unclaimed (frame.1 ▸ by decide)

/-- Settles O8: each rule reads its fields before anything else. -/
theorem outOfRangeFieldIsAnsweredBadField : Obligations.OutOfRangeFieldIsAnsweredBadField := by
  intro i c s h _ hw
  refine h.replies (fun go => h.ready_of_badField (hw go)) (fun go => ?_) rfl
  exact hostRule_badField (by simp [h.frame go]) (hw go) c s

/-- A command of the Trigger Table waits for its claim (R103). -/
theorem hostReady_of_trigger {k : Byte} {p : Payload} (hf : frameOf i = some (k, p))
    (hk : k ∈ triggerKinds) : hostReady i s = s.triggers.claim.isNone := by
  cases i <;> simp only [frameOf, reduceCtorEq, Option.some.injEq, Prod.mk.injEq] at hf
  case trigger | triggerArm | triggerClear | triggerStatus => rfl
  all_goals exact absurd (hf.1 ▸ hk) (by decide)

/-- Settles O9, by the ways in which a command can be out of turn, and those in which it must wait. -/
theorem commandOutOfTurnChangesNothing : Obligations.CommandOutOfTurnChangesNothing := by
  intro i k p s hf hk h
  obtain ⟨go, hg⟩ := extentOf_host hf hk
  rw [exec_host hf hg]
  rcases h with h | h | h | h | ⟨c, ho, hl, hkt, hc, hm⟩ | ⟨c, v, go, ho, hl, rfl, hv, hr, hn, hm⟩
  · exact interpretWhen_outOfTurn (.inl h)
  · exact interpretWhen_outOfTurn (.inr (.inl h))
  · exact interpretWhen_outOfTurn (.inr (.inr (.inl h)))
  · exact interpretWhen_outOfTurn (.inr (.inr (.inr h)))
  · refine interpretWhen_waits ho hl hm ((hostReady_of_trigger hf hkt).trans ?_)
    simpa using Option.ne_none_iff_isSome.1 hc
  · refine interpretWhen_waits ho hl hm ?_
    have holds : sampleHoldsValue s = true := (sampleHoldsValue_iff s).2 hn
    simp [hostReady, hv, hr, holds]

end Sys2Proof.Machine
end

section
/-! The commands that only reply: HELLO, STATUS, GET_TIME, LIST_ACTIONS, LINE_STATUS, CHANNEL_STATUS,
TRIGGER_STATUS and READ (R12, R41, R60, R84, R117, R130, R170, R171). -/

namespace Sys2Proof.Machine

variable {c : QueuedCommand} {s t : State}

@[simp] theorem be_one (n : Nat) : be 1 n = [BitVec.ofNat 8 n] := by simp [be]

@[simp] theorem be_length (n x : Nat) : (be n x).length = n := by
  induction n with
  | zero => rfl
  | succ n ih => simp [be, ih]

theorem helloFields_eq (s : State) : helloFields s
    = [0x12, 0xC8, 1, 64, 8, 8, 4, 16, 128, 32, 4, 8, 16, 120, s.rate.setWidth 8] := by
  have rate : BitVec.ofNat 8 s.rate.toNat = s.rate.setWidth 8 := BitVec.eq_of_toNat_eq (by simp)
  rw [helloFields, rate]
  rfl

/-! ## STATUS (R171) -/

theorem statusReadings_length (s : State) : (statusReadings s).length = 15 := by
  simp [statusReadings]

theorem statusReadings_bytes (s : State) : (statusReadings s).flatten.length = 96 := by
  simp [statusReadings, Function.comp_def]

/-- The readings made and those of this step. -/
theorem readOn_eq {got : List Payload} (h : readingsMade s = got) (go : Extent) :
    readOn go c s = if (got ++ nextReadings go got.length s).length < 15
      then setProgress (.reading (got ++ nextReadings go got.length s)) s
      else answer c .ok (got ++ nextReadings go got.length s).flatten s := by
  subst h
  rfl

theorem nextReadings_oneClaim_length {k : Nat} (hk : k < 15) :
    (nextReadings .oneClaim k s).length = 1 := by
  simp [nextReadings, statusReadings_length]
  omega

theorem nextReadings_toReply_length {k : Nat} :
    (nextReadings .toReply k s).length = 15 - k := by
  simp [nextReadings, statusReadings_length]

/-- A STATUS under execution reads on in its step. -/
theorem exec_status (hup : s.pins.resetActive = false) (hb : interpreterBusy s = false)
    (ho : s.cmd.queue.head? = some c) (hk : c.kind = kindStatus) (hp : c.payload = [])
    (hm : ∀ r, s.cmd.progress ≠ .replying r) (go : Extent) :
    exec (.status go) s = finish (goOn go (readOn go c s)) :=
  (exec_host rfl rfl s).trans (interpretWhen_runs hup hb ho hk hp hm rfl)

/-- Settles O10: HELLO and GET_TIME by their rules, STATUS reading by reading, and the reply made by the
interpreter's own row. -/
theorem helloStatusAndGetTimeOnlyReply : Obligations.HelloStatusAndGetTimeOnlyReply := by
  intro c s
  refine ⟨fun h => ?hello, fun h => ?getTime, fun hup hb ho hk hp got hlen hgot => ?status,
    fun i p r hup hb ho hm hf hk hl => ?made⟩
  case hello =>
    refine h.replies (fun _ => rfl) (fun _ => ?_) rfl
    simp [hostRule, helloFields_eq]
  case getTime =>
    refine h.replies (fun _ => rfl) (fun _ => ?_) rfl
    simp [hostRule, timeFields]
  case status =>
    intro stampQueue link commands readings read
    have listed : readings = statusReadings s := by
      simp [readings, statusReadings, stampQueue, link, commands]
    have made : readingsMade s = got := by
      rcases hgot with h | ⟨h, rfl⟩ <;> simp [readingsMade, h]
    have unmade : ∀ r, s.cmd.progress ≠ .replying r := by
      rcases hgot with h | ⟨h, -⟩ <;> simp [h]
    have reads := exec_status hup hb ho hk hp unmade
    rw [listed]
    refine ⟨statusReadings_length s, statusReadings_bytes s, ?_, fun hl => ?_, fun hl => ?_⟩
    · obtain ⟨t, ht, ha⟩ := answered_of_answer ho .ok
        (got ++ (statusReadings s).drop got.length).flatten
      refine ⟨t, (reads .toReply).trans ?_, ha⟩
      have all : ¬(got ++ nextReadings .toReply got.length s).length < 15 := by
        rw [List.length_append, nextReadings_toReply_length]
        omega
      rw [readOn_eq made, if_neg all]
      exact ht
    · refine (reads .oneClaim).trans ?_
      have more : (got ++ nextReadings .oneClaim got.length s).length < 15 := by
        rw [List.length_append, nextReadings_oneClaim_length hlen]
        omega
      rw [readOn_eq made, if_pos more]
      rfl
    · refine (reads .oneClaim).trans ?_
      have last : ¬(got ++ nextReadings .oneClaim got.length s).length < 15 := by
        rw [List.length_append, nextReadings_oneClaim_length hlen]
        omega
      have rest : nextReadings .oneClaim got.length s = (statusReadings s).drop 14 := by
        rw [hl]
        exact List.take_of_length_le (by simp [statusReadings_length])
      rw [readOn_eq made, if_neg last, rest]
      rfl
  case made =>
    obtain ⟨go, hg⟩ := extentOf_host hf hk
    obtain ⟨t, ht, hfill⟩ := finish_fillMade hm ho
    refine ⟨t, ?_, hfill⟩
    rw [exec_host hf hg, interpretWhen_fills hup hb ho rfl hl hm]
    exact ht

/-! ## The listings -/

/-- Settles O11, command by command. -/
theorem listingCommandsOnlyReply : Obligations.ListingCommandsOnlyReply := by
  intro c s
  refine ⟨fun p h => ?list, fun h => ?lines, fun b n hb h => ?channel, fun b k hb h => ?trigger,
    fun n hn h => ?read⟩
  case list =>
    refine h.replies (fun _ => rfl) (fun _ => ?_) rfl
    simp [hostRule, listFields]
  case lines => exact h.replies (fun _ => rfl) (fun _ => rfl) rfl
  case channel =>
    refine h.replies (fun _ => rfl) (fun _ => ?_) rfl
    simp [hostRule, channelStatusRule, readIndex_of hb, channelStatusFields]
  case trigger =>
    refine h.replies (fun _ => h.unclaimed ?_) (fun _ => ?_) rfl
    · have frame := h.frame .toReply
      simp only [frameOf, Option.some.injEq, Prod.mk.injEq] at frame
      exact frame.1 ▸ by decide
    · simp only [hostRule, triggerStatusRule, readIndex_of hb, triggerStatusFields]
      cases s.triggers.slots[k].use with
      | empty => rfl
      | defined d st left l => cases st <;> simp [SlotUse.code, SlotUse.shots, SlotUse.list]
  case read =>
    have range : 1 ≤ n.toNat ∧ n.toNat ≤ 8 := by simpa [inRange, wellFormed] using hn
    have rule : readRule n c s = if s.stream.state ≠ .off then answer c .state [] s
        else answer c .ok (readFields n.toNat s) s := by
      simp only [readRule, readRange_of range]
    refine ⟨fun hs => ?_, fun hs => ?_⟩
    · exact h.replies (fun _ => rfl) (fun _ => rule.trans (if_pos hs)) rfl
    · refine h.replies (fun _ => rfl) (fun _ => (rule.trans (if_neg (not_not.2 hs))).trans ?_) rfl
      simp [readFields]

end Sys2Proof.Machine
end

section
/-! The timebase: CLOCK, STOP, GATE, SET_TIME, START with its late walk, source periods, tick-clock periods
and ticks (R1 to R13, R37). -/

namespace Sys2Proof.Machine

variable {c : QueuedCommand} {s u t : State}

/-! ## Events that take place -/

/-- An event that takes place while the part is up gives its state, after the claims that end the step. -/
theorem exec_of_eventOf {i : Instr} (he : extentOf i = none ∨ frameOf i = none)
    (hd : isDeviceReset i = false) (hup : s.pins.resetActive = false) (hu : eventOf i s = some u) :
    exec i s = .next (settle u) := by
  rw [exec_event he hd, whileUp, if_neg (by simp [hup]), hu]
  rfl

/-- An event that does not take place changes nothing. -/
theorem exec_of_eventOf_none {i : Instr} (he : extentOf i = none ∨ frameOf i = none)
    (hd : isDeviceReset i = false) (hu : s.pins.resetActive = false → eventOf i s = none) :
    exec i s = .next s := by
  rw [exec_event he hd, whileUp]
  split
  · rfl
  · rename_i hup
    rw [hu (by simpa using hup)]
    rfl

/-! ## CLOCK, STOP and GATE -/

theorem readPrescaler_of {b : Byte} (h : b.toNat ∈ [1, 2, 4, 8, 16, 32, 64, 128]) :
    readPrescaler b = some b.toNat := if_pos h

theorem Channel.atClock_eq (ch : Channel) : ch.atClock
    = { ch with sampling := if ch.sampling = .ahead then .inStep else ch.sampling } := by
  cases h : ch.sampling <;> simp [Channel.atClock, Sampling.atClock, h]

/-- The run state that GATE's settings leave (R6). -/
theorem regate_gateSet (g : Bool) (p v : Level) (s : State) : regate (gateSet g p v s)
    = if s.time.run = .stopped then .stopped else if g = false ∨ v = p then .running else .held := by
  have run : (gateSet g p v s).time.run = s.time.run := rfl
  have gate : gateOpen (gateSet g p v s) = (!g || decide (v = p)) := rfl
  unfold regate
  rw [run, gate]
  cases s.time.run <;> cases g <;> simp

/-- Settles O12, command by command. -/
theorem clockStopAndGateSetTheTimebase : Obligations.ClockStopAndGateSetTheTimebase := by
  intro c s
  refine ⟨fun source prescaler hw h => ?clock, fun h => ?stop, fun gating polarity pin hw h => ?gate⟩
  case clock =>
    have range : source.toNat ≤ 1 ∧ prescaler.toNat ∈ [1, 2, 4, 8, 16, 32, 64, 128] := by
      simpa [inRange, wellFormed] using hw
    have rule : clockRule source prescaler c s = if s.time.run ≠ .stopped then answer c .state [] s
        else answer c .ok [] ((s.withTime { s.time with
          source := if source = 0 then .internal else .refin, prescaler := prescaler.toNat
          count := 0 }).withChannels (mapAll Channel.atClock s.channels)) := by
      simp only [clockRule, readSource_of range.1, readPrescaler_of range.2]
    refine ⟨fun hr => ?_, fun hr => ⟨mapAll Channel.atClock s.channels, fun n => ?_, ?_⟩⟩
    · exact h.replies (fun _ => rfl) (fun _ => rule.trans (if_pos hr)) rfl
    · rw [mapAll_getElem, Channel.atClock_eq]
    · exact h.replies (fun _ => rfl) (fun _ => rule.trans (if_neg (not_not.2 hr))) rfl
  case stop => exact h.replies (fun _ => rfl) (fun _ => rfl) rfl
  case gate =>
    intro level run
    have range : gating.toNat ≤ 1 ∧ polarity.toNat ≤ 1 := by simpa [inRange, wellFormed] using hw
    have entered : regate (gateSet (gating == 1) level pin s) = run := by
      have zero : (gating == 1) = false ↔ gating = 0 := by
        rcases byte_cases gating with rfl | rfl | h
        · decide
        · decide
        · exact absurd range.1 (by omega)
      rw [regate_gateSet]
      simp only [run, zero]
    refine h.replies (fun _ => rfl) (fun _ => ?_) rfl
    rw [← entered]
    simp only [hostRule, gateRule, readYesNo_of range.1, readLevel_of range.2]
    rfl

/-! ## SET_TIME and START -/

theorem OutputLine.atNewValue_eq (v : Time) (l : OutputLine) : l.atNewValue v = match l.pulse with
    | some p => if p.endTick ≤ v then { l with level := l.idle, pulse := none } else l
    | none => l := by
  unfold OutputLine.atNewValue
  cases l.pulse <;> rfl

/-- Settles O13: in a run the refusal; in STOPPED the wait for samples, or the value and the lines. -/
theorem setTimeReplacesTheValueAndEndsPassedPulses :
    Obligations.SetTimeReplacesTheValueAndEndsPassedPulses := by
  intro v c s hw h
  have range : v.toNat ≠ Config.maxTime := by simpa [inRange, wellFormed] using hw
  refine ⟨fun hr => ?run, fun hr hn go => ?waits, fun hr hn => ?sets⟩
  case run =>
    refine h.replies (fun _ => ?_) (fun _ => ?_) rfl
    · simp [hostReady, hr]
    · simp [hostRule, setTimeRule, range, hr]
  case waits =>
    have holds : sampleHoldsValue s = true := (sampleHoldsValue_iff s).2 hn
    have frame := h.frame go
    refine (exec_host frame (h.extent go) s).trans (interpretWhen_waits h.oldest rfl ?_ ?_)
    · simp [h.may.start.fresh]
    · simp [hostReady, range, hr, holds]
  case sets =>
    have free : sampleHoldsValue s = false := by
      rw [← Bool.not_eq_true, sampleHoldsValue_iff]
      rintro ⟨n, hs | ⟨hs, ht⟩⟩
      · exact (hn n).1 hs
      · exact absurd (((hn n).2 hs).symm.trans ht) (by simp)
    refine ⟨mapAll (OutputLine.atNewValue v.toNat) s.lines, ?_, fun n => ?_⟩
    · refine h.replies (fun _ => ?_) (fun _ => ?_) rfl
      · simp [hostReady, free]
      · simp [hostRule, setTimeRule, range, hr]
    · exact (mapAll_getElem ..).trans (OutputLine.atNewValue_eq ..)

/-- Settles O14, by the checks in their order. -/
theorem startEntersARunAfterTheLateWalk : Obligations.StartEntersARunAfterTheLateWalk := by
  intro pin c s h
  have rule : startRule pin c s = if s.time.run ≠ .stopped then answer c .state [] s
      else if Config.maxTime ≤ s.time.value then answer c .range [] s
      else answer c .ok [(startedRun pin s).code] (lateWalk (started pin s)) := rfl
  refine ⟨fun hr => ?state, fun hr hv => ?range, fun hr hv => ?starts⟩
  case state => exact h.replies (fun _ => rfl) (fun _ => rule.trans (if_pos hr)) rfl
  case range =>
    refine h.replies (fun _ => rfl) (fun _ => rule.trans ?_) rfl
    rw [if_neg (not_not.2 hr), if_pos hv]
  case starts =>
    intro run
    have entered : startedRun pin s = run := by
      have gate : gateOpen (readGate pin s) = (!s.time.gating || decide (pin = s.time.polarity)) := rfl
      rw [startedRun, gate]
      simp only [run]
      cases s.time.gating <;> by_cases hp : pin = s.time.polarity <;> simp [hp]
    have same : started pin s
        = (s.withPins { s.pins with gate := pin }).withTime { s.time with run := run } := by
      rw [started, entered]
      rfl
    rw [← same, ← entered]
    refine h.replies (fun _ => rfl) (fun _ => rule.trans ?_) (by simp)
    rw [if_neg (not_not.2 hr), if_neg (Nat.not_le.2 hv)]

/-! ## The late walk (R37) -/

theorem walkRecord_removals (v : Time) (r : Record) (s : State) : (walkRecord v r s).removals
    = s.removals ++ if r.body.late = .skip then [⟨r.handle, .skipped⟩] else [] := by
  cases h : r.body.late <;> simp [walkRecord, h]

theorem walkAll_removals (v : Time) (l : List Record) (s : State) : (walkAll v l s).removals
    = s.removals ++ (l.filter fun r => decide (r.body.late = .skip)).map
        fun r => ⟨r.handle, .skipped⟩ := by
  induction l generalizing s with
  | nil => simp [walkAll]
  | cons r l ih =>
    rw [walkAll, ih, walkRecord_removals]
    by_cases h : r.body.late = .skip <;> simp [h]

/-- Settles O15: the walk record by record, and over distinct handles what becomes of each. -/
theorem lateWalkSettlesEveryRecordDue : Obligations.LateWalkSettlesEveryRecordDue := by
  refine ⟨fun s => rfl, fun v s => rfl, fun v r rs s => ?_, fun s hp => ?_⟩
  · cases h : r.body.late <;> simp [walkAll, walkRecord, h, dropHandle]
  · let due := s.table.records.filter fun r => r.due ≤ s.time.value
    have inDue : ∀ {r}, r ∈ due ↔ r ∈ s.table.records ∧ r.due ≤ s.time.value := by simp [due]
    have mem := fun x => mem_walkAll s.time.value due s (hp.filter _) x
    refine ⟨fun r hr => ?late, fun r hr hd => ?ahead, fun r hr hd hl => ?fire, fun r hr hd hl x hx => ?skip,
      fun x hx => ?handles, ?kept⟩
    case late =>
      rcases (mem r).1 hr with ⟨hm, hne⟩ | ⟨y, -, -, rfl⟩
      · by_contra hd
        exact hne r (inDue.2 ⟨hm, Nat.not_lt.1 hd⟩) rfl
      · exact Nat.lt_succ_self _
    case ahead =>
      refine (mem r).2 (.inl ⟨hr, fun y hy e => ?_⟩)
      obtain ⟨hym, hyd⟩ := inDue.1 hy
      obtain rfl := eq_of_handle hp hr hym e
      exact absurd hd (Nat.not_lt.2 hyd)
    case fire => exact (mem _).2 (.inr ⟨r, inDue.2 ⟨hr, hd⟩, hl, rfl⟩)
    case skip =>
      rcases (mem x).1 hx with ⟨-, hne⟩ | ⟨y, hy, hyl, rfl⟩
      · exact hne r (inDue.2 ⟨hr, hd⟩)
      · intro e
        obtain rfl := eq_of_handle hp (inDue.1 hy).1 hr e
        exact absurd (hyl.symm.trans hl) (by simp)
    case handles =>
      rcases (mem x).1 hx with ⟨hm, -⟩ | ⟨y, hy, -, rfl⟩
      · exact ⟨x, hm, rfl⟩
      · exact ⟨y, (inDue.1 hy).1, rfl⟩
    case kept =>
      refine ⟨by simp, by simp, by simp, by simp, by simp, by simp, by simp, by simp, by simp, by simp,
        by simp, by simp, ?_⟩
      rw [lateWalk, walkAll_removals, List.filter_filter]
      simp only [Bool.and_comm]

/-! ## Source periods and tick-clock periods (R1, R3, R5) -/

theorem samplesDue_of {s : State} (h : ∀ n : Fin 8, s.channels[n].sampling ≠ .due) :
    samplesDue s = false := by
  simp only [samplesDue, List.any_eq_false, decide_eq_true_eq, Vector.mem_toList_iff,
    Vector.mem_iff_getElem]
  rintro _ ⟨n, hn, rfl⟩
  exact h ⟨n, hn⟩

/-- The state in which the timebase takes a tick-clock period: the count at 0, GATE sampled, and each
channel that is not OFF and has not sampled ahead with its sample due. -/
def periodBegun (pin : Level) (s : State) : State :=
  readGate pin ((s.withChannels (mapAll Channel.atPeriod s.channels)).withTime { s.time with count := 0 })

/-- A tick-clock period that takes place. -/
theorem exec_tickClockPeriod {pin : Level} {taken : List TakenEvents}
    (hup : s.pins.resetActive = false) (hd : samplesDue s = false)
    (hc : s.time.prescaler ≤ s.time.count + 1) :
    exec (.tickClockPeriod pin taken) s = .next (settle (takePeriod taken (periodBegun pin s))) := by
  refine exec_of_eventOf (.inl rfl) rfl hup ?_
  simp only [eventOf, hd, show periodEnds s = true by simpa [periodEnds] using hc]
  rfl

/-- A period in STOPPED is no tick. -/
theorem takePeriod_stopped {taken : List TakenEvents} (h : s.time.run = .stopped) :
    takePeriod taken s = s.withTime { s.time with ticked := false } := by
  simp [takePeriod, h]

/-- In a run the gate decides. -/
theorem takePeriod_run {taken : List TakenEvents} (h : s.time.run ≠ .stopped) :
    takePeriod taken s = if gateOpen s
      then tick taken (s.withTime { s.time with run := .running, ticked := true })
      else s.withTime { s.time with run := .held, ticked := false } := by
  cases hr : s.time.run with
  | stopped => exact absurd hr h
  | running => simp [takePeriod, hr]
  | held => simp [takePeriod, hr]

/-- Settles O16: a source period short of the prescaler; a period in STOPPED; one with the gate closed. -/
theorem periodsThatAreNotTicksKeepTheValue : Obligations.PeriodsThatAreNotTicksKeepTheValue := by
  intro s hup hn
  have taken := samplesDue_of hn
  refine ⟨mapAll Channel.atPeriod s.channels, fun n => mapAll_getElem .., fun hc => ?source,
    fun pin vs hc => ⟨fun hr => ?stopped, fun hr hg hp => ?held⟩⟩
  case source =>
    refine exec_of_eventOf (.inl rfl) rfl hup ?_
    simp [eventOf, taken, show periodEnds s = false by simpa [periodEnds] using hc]
  case stopped =>
    rw [exec_tickClockPeriod hup taken hc, takePeriod_stopped (s := periodBegun pin s) hr]
    rfl
  case held =>
    have closed : gateOpen (periodBegun pin s) = false := by
      show (!s.time.gating || decide (pin = s.time.polarity)) = false
      simp [hg, hp]
    rw [exec_tickClockPeriod hup taken hc, takePeriod_run (s := periodBegun pin s) hr, if_neg (by simp [closed])]
    rfl

theorem OutputLine.atTick_eq (t : Time) (l : OutputLine) : l.atTick t = match l.pulse with
    | some p => if p.endTick = t then { l with level := l.idle, pulse := none } else l
    | none => l := by
  unfold OutputLine.atTick
  cases l.pulse <;> rfl

/-- Settles O17: a period with the gate open in a run is `tick_eq`'s. -/
theorem tickEndsPulsesThenFiresTheDueRecords : Obligations.TickEndsPulsesThenFiresTheDueRecords := by
  refine ⟨fun t vs s => rfl, fun t r rs v vs s => ⟨rfl, rfl⟩, fun pin vs s hup hn hc hr hg => ?_⟩
  have opened : gateOpen (periodBegun pin s) = true := by
    show (!s.time.gating || decide (pin = s.time.polarity)) = true
    cases h : s.time.gating
    · rfl
    · simp [hg h]
  have step := exec_tickClockPeriod (pin := pin) (taken := vs) hup (samplesDue_of hn) hc
  rw [takePeriod_run (s := periodBegun pin s) hr, if_pos opened, tick_eq] at step
  refine ⟨mapAll (OutputLine.atTick (s.time.value + 1)) s.lines, mapAll Channel.atPeriod s.channels, _,
    fun n => ?_, fun n => mapAll_getElem .., rfl, fun ht => ?_, fun ht => ?_⟩
  · exact (mapAll_getElem ..).trans (OutputLine.atTick_eq ..)
  · exact step.trans (congrArg (fun x => Host.Outcome.next (settle x)) (if_neg ht))
  · refine step.trans (congrArg (fun x => Host.Outcome.next (settle x)) ((if_pos ht).trans ?_))
    rw [← ht]
    rfl

end Sys2Proof.Machine
end

section
/-! Firing and leaving: a firing's effect on a line and on the sampler, one firing whole, and a removal with
what the await list makes of its report (R30 to R36, R49 to R52, R88 to R91, R112, R168). -/

namespace Sys2Proof.Machine

variable {s t u : State}

/-! ## A firing's effect -/

/-- A line's truncation offers its notice and leaves the line with no pulse (R52). -/
theorem truncate_eq (n : Fin 8) (t : Time) (s : State) : truncate n t s
    = setLine n { s.lines[n] with pulse := none } (match s.lines[n].pulse with
        | some p => if p.notify then offerNotice (.truncated n) t p.label s else s
        | none => s) := by
  unfold truncate
  cases hp : s.lines[n].pulse with
  | none =>
    have same : { s.lines[n] with pulse := none } = s.lines[n] := by rw [← hp]
    dsimp only
    rw [same]
    simp [setLine]
  | some p =>
    dsimp only
    split <;> rfl

/-- A firing on a SCHEDULED line (R50 to R52). -/
theorem lineEffect_scheduled {n : Fin 8} (e : LineEffect) (t : Time)
    (h : s.lines[n].mode = .scheduled) : lineEffect n e t s = (.applied,
      (match s.lines[n].pulse with
        | some p => if p.notify then offerNotice (.truncated n) t p.label s else s
        | none => s).withLines (s.lines.set n ({ s.lines[n] with pulse := none }.apply e t))) := by
  have told : ∀ p : Option Pulse, (match p with
      | some p => if p.notify then offerNotice (.truncated n) t p.label s else s
      | none => s).lines = s.lines := by
    intro p
    cases p with
    | none => rfl
    | some p => dsimp only; split <;> rfl
  have scheduled : s.lines[n].mode ≠ .direct := by rw [h]; exact nofun
  rw [lineEffect, if_neg scheduled, truncate_eq]
  dsimp only
  generalize hw : (match s.lines[n].pulse with
    | some p => if p.notify then offerNotice (.truncated n) t p.label s else s
    | none => s) = w
  have lines : w.lines = s.lines := hw ▸ told _
  simp [setLine, lines]

/-- Settles O18: a line by its mode, the converter by its state. -/
theorem firingOnALineOrTheSamplerIsAnswered : Obligations.FiringOnALineOrTheSamplerIsAnswered := by
  refine ⟨fun n e t s => ⟨fun h => ?direct, fun h => ?scheduled⟩,
    fun i t label late s => ⟨fun h => ?off, fun h => ?idle, fun h => ?busy⟩⟩
  case direct => exact if_pos h
  case scheduled =>
    intro told line
    refine (lineEffect_scheduled e t h).trans ?_
    cases e <;> rfl
  case off => simp [sampleFiring, h]
  case idle => simp [sampleFiring, h]
  case busy =>
    refine ⟨{ s.sampler.inputs[i] with busyMiss := satInc s.sampler.inputs[i].busyMiss }, ?_, rfl,
      satInc_toNat _⟩
    cases hc : s.sampler.conv <;> rw [hc] at h <;> simp only [Converter.takenUp, reduceCtorEq] at h
    all_goals simp [sampleFiring, hc, setInput]

/-! ## One firing (R31 to R35) -/

/-- What a labelled firing hands over (R32). -/
theorem offerLabel_eq (label : Option Label) (st : FiringStatus) (t : Time) (s : State) :
    offerLabel label st t s = s.withHanded { s.handed with events := s.handed.events ++
      match label with
      | some l => if st = .normal ∨ st = .late then [⟨.label l, t⟩] else []
      | none => [] } := by
  have same : s.withHanded { s.handed with events := s.handed.events ++ [] } = s := by
    rw [List.append_nil]
    rfl
  unfold offerLabel
  cases label with
  | none => exact same.symm
  | some l =>
    cases st with
    | normal | late => rfl
    | suppressed | busy => exact same.symm

theorem notifies_eq (p : ReportPolicy) : p.notifies = decide (p ≠ .none) := by
  cases p <;> simp [ReportPolicy.notifies]

/-- What a firing hands to its target (R31). -/
theorem fireEffect_eq (r : Record) (t : Time) (s : State) : fireEffect r t s
    = match r.body.action with
      | .set n => lineEffect n .set t s
      | .clear n => lineEffect n .clear t s
      | .toggle n => lineEffect n .toggle t s
      | .pulse n w => lineEffect n (.pulse w r.body.label (decide (r.body.report ≠ .none))) t s
      | .sample i => sampleFiring i t r.body.label r.lateFlag s
      | .mark => (.applied, s) := by
  rw [← notifies_eq]
  rfl

/-- A record that fired leaves DONE with its count used up or no repeat (R33). -/
theorem settleRecord_done {r : Record} {t : Time} (h : r.remaining = 1 ∨ r.body.repeats = none) :
    settleRecord r t s = removeRecord r.fired .done t s := by
  by_cases h1 : r.remaining = 1
  · simp [settleRecord, h1, Record.fired]
  · simp [settleRecord, h1, h.resolve_left h1, Record.fired]

theorem settleRecord_range {r : Record} {t : Time} {rep : Repeat} (h1 : r.remaining ≠ 1)
    (h2 : r.body.repeats = some rep) (h3 : Config.maxTime < t + rep.period) :
    settleRecord r t s = removeRecord r.fired .range t s := by
  simp [settleRecord, h1, h2, h3, Record.fired]

theorem settleRecord_retimed {r : Record} {t : Time} {rep : Repeat} (h1 : r.remaining ≠ 1)
    (h2 : r.body.repeats = some rep) (h3 : t + rep.period ≤ Config.maxTime) :
    settleRecord r t s = s.withTable { s.table with
      records := insertRecord (r.retimed t rep.period) (dropHandle r.handle s.table.records) } := by
  simp [settleRecord, h1, h2, Nat.not_lt.2 h3, Record.retimed]

/-- Settles O19: the firing's parts in turn, and then the three ways its record can go. -/
theorem markFiringReportsAndRetimesOrLeaves : Obligations.MarkFiringReportsAndRetimesOrLeaves := by
  intro taken t r s label hit st source reported handed u fired
  have effect : fireEffect r t s = hit := fireEffect_eq r t s
  have status : firingStatus hit.1 r.lateFlag = st := by
    simp only [st]
    cases hit.1 <;> rfl
  have offered : fireOffered t r s = if reported then
      offerNotice (.fired r.handle st (r.ordinal + 1)) t label handed else handed := by
    unfold fireOffered
    rw [effect, status]
    dsimp only
    rw [offerLabel_eq]
    rfl
  have whole : fireRecord taken t r s = takeBlockEvents taken.after (settleRecord r t u) := by
    rw [fireRecord_eq, offered]
  have table : u.table = s.table := by
    simp only [u, ← offered]
    simp
  refine ⟨fun h => ?_, fun rep h1 h2 h3 => ?_, fun rep h1 h2 h3 => ?_⟩
  · rw [whole, settleRecord_done h]
    rfl
  · rw [whole, settleRecord_range h1 h2 h3]
    rfl
  · rw [whole, settleRecord_retimed h1 h2 h3, table]
    rfl

/-! ## A removal (R20, R34, R36, R112) -/

/-- A removal is a removal in the table, an offer, a report to the triggers and one to the awaits. -/
theorem removeRecord_frame (r : Record) (e : EndReason) (t : Time) (s : State) :
    removeRecord r e t s = (((s.withTable (removeRecord r e t s).table).withOffered
      (removeRecord r e t s).offered).withTriggers (removeRecord r e t s).triggers).withRemovals
        (removeRecord r e t s).removals := by
  unfold removeRecord
  cases r.body.report.notifies <;> cases r.origin <;> rfl

theorem removeRecord_slot (r : Record) (e : EndReason) (t : Time) (s : State) (k : Fin 16) :
    (removeRecord r e t s).triggers.slots[k] = { s.triggers.slots[k] with
      use := match s.triggers.slots[k].use with
        | .empty => .empty
        | .defined d st n l => .defined d st n
            (if r.origin = .trigger k then l.filter (fun h => h ≠ r.handle) else l) } := by
  have use := removeRecord_use r e t s k
  have misses := (removeRecord_claim r e t s).2 k
  generalize (removeRecord r e t s).triggers.slots[k] = x at use misses
  obtain ⟨xu, xm⟩ := x
  obtain rfl : xm = s.triggers.slots[k].misses := misses
  obtain rfl := use
  congr 1
  cases s.triggers.slots[k].use <;> by_cases h : r.origin = .trigger k <;>
    simp [h, SlotUse.dropInstance]

/-- The slots' generations after a removal (R20). -/
theorem removeRecord_gens (r : Record) (e : EndReason) (t : Time) (s : State) :
    (removeRecord r e t s).table.gens[r.handle.slot] = (if s.table.gens[r.handle.slot] = 255 then 1
        else s.table.gens[r.handle.slot] + 1)
    ∧ ∀ i : Fin 64, i ≠ r.handle.slot → (removeRecord r e t s).table.gens[i] = s.table.gens[i] := by
  refine ⟨by simp [nextGeneration], fun i hi => ?_⟩
  have := Fin.val_ne_of_ne hi.symm
  simp [this]

/-! ## The await list takes a report (R168) -/

theorem not_isEmpty_eq {α : Type} (l : List α) [Decidable (l ≠ [])] :
    (!l.isEmpty) = decide (l ≠ []) := by
  cases l <;> simp

/-- Slots filled touch the command block and the transmitter alone. -/
theorem fillSlots_frame (l : List (Fin 16 × Reply)) (s : State) : fillSlots l s
    = (s.withCmd { s.cmd with slots := (fillSlots l s).cmd.slots
                              replyQueue := s.cmd.replyQueue ++ l.map Prod.fst }).withTx
        { s.tx with told := s.tx.told || !l.isEmpty } := by
  induction l generalizing s with
  | nil =>
    simp only [fillSlots, List.map_nil, List.append_nil, List.isEmpty_nil, Bool.not_true, Bool.or_false]
    rfl
  | cons p l ih =>
    rw [fillSlots, ih]
    simp only [fillSlot, withTx_cmd, withCmd_cmd, withTx_tx, List.map_cons, List.append_assoc,
      List.singleton_append, List.isEmpty_cons, Bool.not_false, Bool.true_or, Bool.or_true]
    rfl

theorem answerAwaits_frame (h : Handle) (e : EndReason) (s : State) : answerAwaits h e s
    = (s.withCmd { s.cmd with
        slots := (answerAwaits h e s).cmd.slots
        awaits := s.cmd.awaits.filter fun a => a.handle ≠ h
        replyQueue := s.cmd.replyQueue
          ++ (s.cmd.awaits.filter fun a => a.handle = h).map AwaitEntry.slot }).withTx
      { s.tx with told := s.tx.told || !(s.cmd.awaits.filter fun a => a.handle = h).isEmpty } := by
  unfold answerAwaits
  dsimp only
  rw [answerEntries_eq, fillSlots_frame, List.map_map, List.isEmpty_map]
  rfl

theorem fillSlots_withRemovals (l : List (Fin 16 × Reply)) (x : List RemovalReport) (s : State) :
    fillSlots l (s.withRemovals x) = (fillSlots l s).withRemovals x := by
  induction l generalizing s with
  | nil => rfl
  | cons p l ih => exact ih (fillSlot p.1 p.2 s)

/-- Taking a report does not look at those that wait behind it. -/
theorem answerAwaits_withRemovals (h : Handle) (e : EndReason) (x : List RemovalReport) (s : State) :
    answerAwaits h e (s.withRemovals x) = (answerAwaits h e s).withRemovals x := by
  unfold answerAwaits
  dsimp only
  rw [answerEntries_eq, answerEntries_eq, withRemovals_cmd, fillSlots_withRemovals]
  rfl

/-- The reports that wait are the oldest and those behind it. -/
theorem takeRemovals_cons {x : RemovalReport} {l : List RemovalReport} (h : s.removals = x :: l) :
    takeRemovals s = takeRemovals (takeRemoval s) := by
  have first : takeRemoval s = (answerAwaits x.handle x.reason s).withRemovals l := by
    rw [takeRemoval, h]
    exact answerAwaits_withRemovals ..
  rw [first, takeRemovals, takeRemovals, h, answerReports, answerAwaits_withRemovals]
  rfl

/-- Settles O20: the removal block by block, and the taking of its report. -/
theorem removalTellsEveryBlockThatHeldTheRecord :
    Obligations.RemovalTellsEveryBlockThatHeldTheRecord := by
  refine ⟨fun r e t s => ?removal, fun h e rest s hr hn => ?report, fun s => ?reports⟩
  case removal =>
    obtain ⟨own, others⟩ := removeRecord_gens r e t s
    exact ⟨by simp [dropHandle], own, others, by simp, removeRecord_offered .., removeRecord_slot r e t s,
      by simp, by simp, removeRecord_frame ..⟩
  case report =>
    intro u answered
    have taken : u = answerAwaits h e (s.withRemovals rest) := by
      simp [u, takeEndClaim, takeRemoval, hr]
    have frame := answerAwaits_frame h e (s.withRemovals rest)
    rw [← taken] at frame
    have awaitSlots : (answered.map AwaitEntry.slot).Nodup :=
      (List.nodup_append.1 hn).2.1.sublist (List.Sublist.map _ List.filter_sublist)
    have slots : u.cmd.slots = (answerEntries .ok (handleBytes h ++ [e.code]) answered
        (s.withRemovals rest)).cmd.slots := by rw [taken]; rfl
    refine ⟨by rw [frame]; rfl, by rw [frame]; rfl, fun a ha hh => ?_, fun i hi => ?_, ?_, ?_, ?_⟩
    · rw [slots]
      exact answerEntries_own awaitSlots (List.mem_filter.2 ⟨ha, by simpa using hh⟩)
    · rw [slots]
      refine answerEntries_other fun a ha => ?_
      obtain ⟨hm, hh⟩ := List.mem_filter.1 ha
      exact hi a hm (by simpa using hh)
    · rw [frame]
      rfl
    · rw [frame]
      exact congrArg (fun b => { s.tx with told := s.tx.told || b }) (not_isEmpty_eq answered)
    · rw [frame]
      rfl
  case reports =>
    refine ⟨rfl, fun hr => ⟨by simp [takeEndClaim, takeRemoval, hr], takeRemovals_none hr⟩, fun hr => ?_⟩
    obtain ⟨x, xs, hx⟩ := List.exists_cons_of_ne_nil hr
    exact takeRemovals_cons hx

end Sys2Proof.Machine
end

section
/-! The Action Table's commands and answers: the readings of an action's fields, admission, SCHEDULE, CANCEL,
CANCEL_LINE, and the requests of a trigger (R21 to R29, R39, R40, R61). -/

namespace Sys2Proof.Machine

variable {c : QueuedCommand} {s : State}

/-! ## Readings (R23, R195, R197) -/

theorem readIndex_eq_some {n : Nat} {b : Byte} {i : Fin n} :
    readIndex n b = some i ↔ b.toNat = i.val := by
  refine ⟨fun h => ?_, readIndex_of⟩
  unfold readIndex at h
  split at h <;> cases h
  rfl

theorem readLate_eq_some {b : Byte} {l : LatePolicy} :
    readLate b = some l ↔ b = match l with | .fire => 0 | .skip => 1 := by
  rcases byte_cases b with rfl | rfl | h
  · cases l <;> decide
  · cases l <;> decide
  · have none : readLate b = none := eq_none_of_isSome (by simpa using h)
    rw [none]
    cases l <;> simp only [reduceCtorEq, false_iff] <;> rintro rfl <;> exact absurd h (by decide)

theorem readYesNo_eq_some {b : Byte} {v : Bool} :
    readYesNo b = some v ↔ b = if v then 1 else 0 := by
  rcases byte_cases b with rfl | rfl | h
  · cases v <;> decide
  · cases v <;> decide
  · have none : readYesNo b = none := eq_none_of_isSome (by simpa using h)
    rw [none]
    cases v <;> simp only [reduceCtorEq, false_iff] <;> rintro rfl <;> exact absurd h (by decide)

theorem readReport_eq_some {report n : Byte} {p : ReportPolicy} : readReport report n = some p ↔
    match p with
    | .none => report = 0
    | .each => report = 1
    | .last => report = 2
    | .every m => report = 3 ∧ n.toNat = m ∧ 2 ≤ m ∧ m ≤ 16 := by
  unfold readReport
  split
  case h_1 h | h_2 h | h_3 h => cases p <;> simp [BitVec.toNat_eq, h]
  case h_4 h =>
    split
    · rename_i hn
      cases p
      case every m =>
        simp only [Option.some.injEq, ReportPolicy.every.injEq, BitVec.toNat_eq, h]
        exact ⟨fun e => ⟨rfl, e, e ▸ hn⟩, fun e => e.2.1⟩
      all_goals simp [BitVec.toNat_eq, h]
    · rename_i hn
      cases p
      case every m =>
        simp only [reduceCtorEq, false_iff]
        rintro ⟨-, rfl, h2⟩
        exact hn h2
      all_goals simp [BitVec.toNat_eq, h]
  case h_5 h0 h1 h2 h3 => cases p <;> simp_all [BitVec.toNat_eq]

theorem readAction_eq_some {f : TemplateFields} {a : Action} : readAction f = some a ↔
    match a with
    | .set n => f.kind = 0 ∧ f.target.toNat = n.val
    | .clear n => f.kind = 1 ∧ f.target.toNat = n.val
    | .toggle n => f.kind = 2 ∧ f.target.toNat = n.val
    | .pulse n w => f.kind = 3 ∧ f.target.toNat = n.val ∧ f.width.toNat = w ∧ w ≠ 0
    | .sample i => f.kind = 4 ∧ f.target.toNat = i.val
    | .mark => f.kind = 5 := by
  unfold readAction
  split
  case h_1 h | h_2 h | h_3 h | h_5 h | h_6 h =>
    cases a <;> simp [BitVec.toNat_eq, h, readIndex_eq_some]
  case h_4 h =>
    split
    · rename_i hw
      cases a
      case pulse n w =>
        simp only [reduceCtorEq, false_iff]
        rintro ⟨-, -, rfl, h0⟩
        exact h0 (by simp [hw])
      all_goals simp [BitVec.toNat_eq, h]
    · rename_i hw
      cases a
      case pulse n w =>
        have nonzero : f.width.toNat ≠ 0 := fun e => hw (BitVec.eq_of_toNat_eq e)
        simp only [Option.map_eq_some_iff, readIndex_eq_some, Action.pulse.injEq, BitVec.toNat_eq, h]
        constructor
        · rintro ⟨m, hm, rfl, rfl⟩
          exact ⟨rfl, hm, rfl, nonzero⟩
        · rintro ⟨-, hm, hw, -⟩
          exact ⟨n, hm, rfl, hw⟩
      all_goals simp [BitVec.toNat_eq, h]
  case h_7 h0 h1 h2 h3 h4 h5 => cases a <;> simp_all [BitVec.toNat_eq]

/-! ## Admission (R24 to R29) -/

/-- A due time that a run has passed (R26). -/
def isLate (due : Time) (s : State) : Bool := decide (s.time.run ≠ .stopped ∧ due ≤ s.time.value)

/-- The table with a record of this body admitted into a slot (R27, R28). -/
def withAdmitted (k : Fin 64) (b : Template) (due : Time) (late : Bool) (o : Origin) (s : State) : State :=
  s.withTable { s.table with
    records := insertRecord
      { handle := ⟨s.table.gens[k], k⟩, body := b, due := due
        remaining := (match b.repeats with | none => 1 | some rep => rep.count), origin := o
        ordinal := 0, lateFlag := late, standing := s.table.nextStanding } s.table.records
    nextStanding := s.table.nextStanding + 1 }

theorem admitInto_eq (k : Fin 64) (b : Template) (due : Time) (late : Bool) (o : Origin) (s : State) :
    admitInto k b due late o s = (⟨s.table.gens[k], k⟩, withAdmitted k b due late o s) := by
  have count : initialRemaining b.repeats = match b.repeats with | none => 1 | some rep => rep.count := by
    cases b.repeats <;> rfl
  rw [admitInto, count]
  rfl

theorem lateCheck_past {b : Template} {due : Time} (hl : isLate due s = true) (hb : b.late = .skip) :
    lateCheck b.late due s = none := by
  rw [lateCheck_eq, if_pos (by simpa [isLate] using hl), hb]

theorem lateCheck_admits {b : Template} {due : Time} (hb : isLate due s = true → b.late = .fire) :
    lateCheck b.late due s
      = some (if isLate due s then s.time.value + 1 else due, isLate due s) := by
  rw [lateCheck_eq]
  cases hl : isLate due s with
  | true =>
    rw [if_pos (by simpa [isLate] using hl), hb hl]
    rfl
  | false =>
    rw [if_neg (by simpa [isLate] using hl)]
    rfl

section Admission

variable {b : Template} {due : Time} {o : Origin}

theorem plainAdmission_range (h : Config.maxTime < due) : plainAdmission b due o s = (.range, s) :=
  if_pos h

theorem plainAdmission_full (h : due ≤ Config.maxTime)
    (hf : ∀ k : Fin 64, ∃ r ∈ s.table.records, r.handle.slot = k) :
    plainAdmission b due o s = (.tableFull, s) := by
  rw [plainAdmission, if_neg (Nat.not_lt.2 h), freeTableSlot_none.2 hf]

theorem plainAdmission_past (h : due ≤ Config.maxTime)
    (hf : ¬∀ k : Fin 64, ∃ r ∈ s.table.records, r.handle.slot = k) (hl : isLate due s = true)
    (hb : b.late = .skip) : plainAdmission b due o s = (.past, s) := by
  obtain ⟨k, hk⟩ := Option.ne_none_iff_exists'.1 (mt freeTableSlot_none.1 hf)
  rw [plainAdmission, if_neg (Nat.not_lt.2 h), hk]
  dsimp only
  rw [lateCheck_past hl hb]

theorem plainAdmission_admits (h : due ≤ Config.maxTime)
    (hf : ¬∀ k : Fin 64, ∃ r ∈ s.table.records, r.handle.slot = k)
    (hb : isLate due s = true → b.late = .fire) :
    ∃ k : Fin 64, (∀ r ∈ s.table.records, r.handle.slot ≠ k)
      ∧ (∀ j : Fin 64, j < k → ∃ r ∈ s.table.records, r.handle.slot = j)
      ∧ plainAdmission b due o s = (.handle ⟨s.table.gens[k], k⟩,
        withAdmitted k b (if isLate due s then s.time.value + 1 else due) (isLate due s) o s) := by
  obtain ⟨k, hk⟩ := Option.ne_none_iff_exists'.1 (mt freeTableSlot_none.1 hf)
  obtain ⟨free, lowest⟩ := freeTableSlot_some.1 hk
  refine ⟨k, free, lowest, ?_⟩
  rw [plainAdmission, if_neg (Nat.not_lt.2 h), hk]
  dsimp only
  rw [lateCheck_admits hb]
  dsimp only
  rw [admitInto_eq]

theorem replaceAdmission_live {old : Handle} {r : Record} (hr : findRecord old s = some r) :
    (Config.maxTime < due → replaceAdmission old b due o s = (.range, s))
    ∧ (due ≤ Config.maxTime → isLate due s = true → b.late = .skip →
        replaceAdmission old b due o s = (.past, s))
    ∧ (due ≤ Config.maxTime → (isLate due s = true → b.late = .fire) →
        replaceAdmission old b due o s = (.handle ⟨nextGeneration s.table.gens[old.slot], old.slot⟩,
          withAdmitted old.slot b (if isLate due s then s.time.value + 1 else due) (isLate due s) o
            (removeRecord r .cancelled s.time.value s))) := by
  obtain ⟨-, handle⟩ := findRecord_some hr
  refine ⟨fun h => ?_, fun h hl hb => ?_, fun h hb => ?_⟩
  all_goals
    rw [replaceAdmission, hr]
    dsimp only
  · rw [if_pos h]
  · rw [if_neg (Nat.not_lt.2 h), lateCheck_past hl hb]
  · rw [if_neg (Nat.not_lt.2 h), lateCheck_admits hb]
    dsimp only
    rw [admitInto_eq]
    simp [handle]

end Admission

/-- Settles O37: the plain request's checks in their order, and then the replacement's. -/
theorem tableAnswersPlainAndReplacementRequests :
    Obligations.TableAnswersPlainAndReplacementRequests := by
  intro b due o s late full admitted
  refine ⟨plainAdmission_range, plainAdmission_full, plainAdmission_past, plainAdmission_admits,
    fun old h => ?_, fun old r h => replaceAdmission_live h⟩
  have dead : findRecord old s = none := h
  rw [replaceAdmission, dead]

/-! ## SCHEDULE (R21 to R27) -/

/-- A record takes its place before the first that stands after it (R21). -/
theorem insertRecord_eq (r : Record) (rs : List Record) : insertRecord r rs
    = rs.takeWhile (fun x => !r.before x) ++ r :: rs.dropWhile (fun x => !r.before x) := by
  induction rs with
  | nil => rfl
  | cons x rs ih =>
    rw [insertRecord]
    split
    · simp [*]
    · simp [*]

/-- Settles O21: the checks in their order, the place in the table, and the codes read. -/
theorem scheduleAdmitsOneRecordOrRefuses : Obligations.ScheduleAdmitsOneRecordOrRefuses := by
  refine ⟨fun f b c s hw hb h => ?command, fun r rs => ?place, fun f b => ?codes⟩
  case command =>
    intro due late full
    have range : f.dueMode.toNat ≤ 1 := by
      simp only [inRange, wellFormed, Bool.and_eq_true, decide_eq_true_eq] at hw
      exact hw.2
    have policy := readLate_eq_some.1 (readBody_eq_some.1 hb).2.2.1
    have asked : dueTime (f.dueMode == 1) f.dueValue s = due := by
      simp only [due, dueTime]
      rcases byte_cases f.dueMode with e | e | e
      · simp [e]
      · simp [e]
      · omega
    have rule : scheduleRule f c s = answer c (plainAdmission b due .host s).1.status
        (plainAdmission b due .host s).1.fields (plainAdmission b due .host s).2 := by
      simp only [scheduleRule, hb, readDueMode, readYesNo_of range, asked]
    have skip : f.action.late = 1 → b.late = .skip := fun e => by
      cases hl : b.late with
      | skip => rfl
      | fire => rw [e, hl] at policy; exact absurd policy (by decide)
    have fire : f.action.late = 0 → b.late = .fire := fun e => by
      cases hl : b.late with
      | fire => rfl
      | skip => rw [e, hl] at policy; exact absurd policy (by decide)
    refine ⟨fun hd => ?_, fun hd hf => ?_, fun hd hf hl hs => ?_, fun hd hf hl => ?_⟩
    · refine h.replies (fun _ => rfl) (fun _ => rule.trans ?_) rfl
      rw [plainAdmission_range hd]
      rfl
    · refine h.replies (fun _ => rfl) (fun _ => rule.trans ?_) rfl
      rw [plainAdmission_full hd hf]
      rfl
    · refine h.replies (fun _ => rfl) (fun _ => rule.trans ?_) rfl
      rw [plainAdmission_past hd hf hl (skip hs)]
      rfl
    · obtain ⟨k, free, lowest, hk⟩ :=
        plainAdmission_admits (o := .host) hd hf (fun e => fire (hl e))
      refine ⟨k, free, lowest, ?_⟩
      refine h.replies (fun _ => rfl) (fun _ => rule.trans ?_) rfl
      rw [hk]
      rfl
  case place =>
    intro after
    have same : after = r.before := by
      funext x
      rw [Bool.eq_iff_iff, Record.before_iff]
      simp [after]
    rw [same]
    exact insertRecord_eq r rs
  case codes =>
    rw [readBody_eq_some, readAction_eq_some, readReport_eq_some, readLate_eq_some]
    exact and_congr Iff.rfl (and_congr Iff.rfl (and_congr Iff.rfl (and_congr eq_comm eq_comm)))

/-! ## CANCEL and CANCEL_LINE (R39, R40, R61) -/

theorem onLine_eq (n : Fin 8) (a : Action) : a.onLine n = match a with
    | .set m | .clear m | .toggle m | .pulse m _ => decide (m = n)
    | .sample _ | .mark => false := by
  cases a <;> rfl

/-- The records on a line, removed over distinct handles, are gone and no others. -/
theorem removeRecords_onLine {n : Fin 8} (e : EndReason) (t : Time)
    (hp : s.table.records.Pairwise fun a b => a.handle ≠ b.handle) :
    (removeRecords e t (recordsOnLine n s) s).table.records
      = s.table.records.filter fun r => !r.body.action.onLine n := by
  rw [removeRecords_records]
  refine List.filter_congr fun x hx => ?_
  rw [Bool.eq_iff_iff]
  constructor
  · intro h
    by_contra hon
    have hit : x ∈ recordsOnLine n s := List.mem_filter.2 ⟨hx, by simpa using hon⟩
    exact of_decide_eq_true h x hit rfl
  · intro hoff
    refine decide_eq_true fun r hr he => ?_
    obtain ⟨hm, hon⟩ := List.mem_filter.1 hr
    obtain rfl := eq_of_handle hp hx hm he
    simp [hon] at hoff

theorem OutputLine.release_eq (l : OutputLine) : l.release
    = if l.mode = .scheduled ∧ l.pulse.isSome then { l with level := l.idle, pulse := none } else l := rfl

/-- Settles O22, command by command. -/
theorem cancelAndCancelLineRemoveRecords : Obligations.CancelAndCancelLineRemoveRecords := by
  refine ⟨fun e t s => rfl, fun e t r rs s => rfl, fun c s => ⟨fun gen slot x hg hxg hs h => ?cancel,
    fun line release n hn hw h => ?cancelLine⟩⟩
  case cancel =>
    have handle : readHandle gen slot = some x := by
      rw [readHandle, if_neg hg, readIndex_of hs, ← hxg]
      rfl
    refine ⟨fun hd => ?_, fun r hr => ?_⟩
    · refine h.replies (fun _ => rfl) (fun _ => ?_) rfl
      simp [hostRule, cancelRule, handle, findRecord_none.2 hd]
    · have live : findRecord x s = some r := hr
      refine h.replies (fun _ => rfl) (fun _ => ?_) (by simp)
      simp [hostRule, cancelRule, handle, live]
  case cancelLine =>
    intro onLine hits
    have same : hits = recordsOnLine n s := by
      refine List.filter_congr fun r _ => ?_
      exact (onLine_eq n r.body.action).symm
    have range : release.toNat ≤ 1 := by
      simp only [inRange, wellFormed, decide_eq_true_eq] at hw
      exact hw.2
    have rule : cancelLineRule line release c s = answer c .ok (be 1 (recordsOnLine n s).length)
        (releaseLine (release == 1) n
          (removeRecords .cancelled s.time.value (recordsOnLine n s) s)) := by
      simp only [cancelLineRule, readIndex_of hn, readYesNo_of range]
    refine ⟨_, rfl, by simp, fun hp => ?_, fun hr => ?_, fun hr => ?_⟩
    · rw [same, removeRecords_onLine _ _ hp]
      refine List.filter_congr fun r _ => ?_
      exact congrArg (! ·) (onLine_eq n r.body.action)
    · refine h.replies (fun _ => rfl) (fun _ => rule.trans ?_) (by simp)
      rw [same, hr, be_one]
      rfl
    · refine h.replies (fun _ => rfl) (fun _ => rule.trans ?_) (by simp)
      rw [same, hr, be_one]
      simp [releaseLine, setLine, OutputLine.release_eq]

end Sys2Proof.Machine
end

section
/-! The lines' LINE and the channels' CHANNEL and CHANNEL_OFF (R57, R58, R72, R81 to R83). -/

namespace Sys2Proof.Machine

variable {c : QueuedCommand} {s : State}

/-! ## LINE -/

theorem lineMode_code {b : Byte} (h : b.toNat ≤ 1) :
    LineMode.code (if b = 0 then .direct else .scheduled) = b := by
  have : b = 0 ∨ b = 1 := by bv_omega
  rcases this with rfl | rfl <;> rfl

theorem levelCode_of {b : Byte} (h : b.toNat ≤ 1) :
    levelCode (if b = 0 then .low else .high) = b := by
  have : b = 0 ∨ b = 1 := by bv_omega
  rcases this with rfl | rfl <;> rfl

/-- Settles O23: the refusal of a new idle level in a pulse, or the line's new settings. -/
theorem lineSetsModeAndIdleLevel : Obligations.LineSetsModeAndIdleLevel := by
  intro line mode idle n c s hn hw h i
  have range : mode.toNat ≤ 1 ∧ idle.toNat ≤ 1 := by
    simp only [inRange, wellFormed, decide_eq_true_eq] at hw
    exact hw.2
  let l : OutputLine := s.lines[n].configure (if mode = 0 then .direct else .scheduled) i
  have rule : lineRule line mode idle c s
      = if s.lines[n].pulse.isSome ∧ i ≠ s.lines[n].idle then answer c .state [] s
        else answer c .ok [l.mode.code, levelCode l.idle, levelCode l.level] (setLine n l s) := by
    simp only [lineRule, readIndex_of hn, readLineMode_of range.1, readLevel_of range.2]
    rfl
  refine ⟨fun hp hi => ?_, fun hi => ?_⟩
  · exact h.replies (fun _ => rfl) (fun _ => rule.trans (if_pos ⟨hp, hi⟩)) rfl
  · have free : ¬(s.lines[n].pulse.isSome ∧ i ≠ s.lines[n].idle) := fun ⟨hp, hne⟩ => hne (hi hp)
    have codes : l.mode.code = mode ∧ levelCode l.idle = idle :=
      ⟨lineMode_code range.1, levelCode_of range.2⟩
    have same : l = { mode := if mode = 0 then .direct else .scheduled, idle := i
                      level := s.lines[n].level
                      pulse := if mode = 0 then none else s.lines[n].pulse } := by
      by_cases hm : mode = 0 <;> simp [l, OutputLine.configure, hm]
    refine h.replies (fun _ => rfl) (fun _ => rule.trans ?_) rfl
    rw [if_neg free, codes.1, codes.2, ← same]
    rfl

/-! ## The readings of CHANNEL (R81, R197) -/

theorem readChannelMode_eq_some {b : Byte} {m : ChannelMode} : readChannelMode b = some m ↔
    b = match m with | .off => 0 | .edge => 1 | .width => 2 | .period => 3 := by
  unfold readChannelMode
  split
  case h_1 h | h_2 h | h_3 h | h_4 h => cases m <;> simp [BitVec.toNat_eq, h]
  case h_5 h0 h1 h2 h3 => cases m <;> simp_all [BitVec.toNat_eq]

theorem readEdge_eq_some {m : ChannelMode} {b : Byte} {e : EdgeSelection} : readEdge m b = some e ↔
    (b = match e with | .rising => 0 | .falling => 1 | .both => 2 | .high => 3 | .low => 4)
    ∧ (m = .width ↔ e = .high ∨ e = .low) := by
  unfold readEdge
  split <;> cases e <;> simp_all [BitVec.toNat_eq]

theorem readDivisor_eq_some {m : ChannelMode} {b : Byte} {d : Nat} : readDivisor m b = some d ↔
    b.toNat = d ∧ 1 ≤ d ∧ (m = .width → d = 1) := by
  have zero : b = 0 ↔ b.toNat = 0 := BitVec.toNat_inj.symm
  have one : b = 1 ↔ b.toNat = 1 := BitVec.toNat_inj.symm
  unfold readDivisor
  split
  · rename_i h
    simp only [reduceCtorEq, false_iff]
    rintro ⟨rfl, hd, hm⟩
    rcases h with h | ⟨hw, h⟩
    · rw [zero] at h
      omega
    · exact h (one.2 (hm hw))
  · rename_i h
    obtain ⟨h0, h1⟩ := not_or.1 h
    rw [zero] at h0
    rw [not_and, not_not, one] at h1
    rw [Option.some.injEq]
    refine ⟨?_, fun hd => hd.1⟩
    rintro rfl
    exact ⟨rfl, by omega, h1⟩

theorem readRange_eq_some {lo hi x y : Nat} : readRange lo hi x = some y ↔ x = y ∧ lo ≤ y ∧ y ≤ hi := by
  unfold readRange
  split
  · rename_i h
    rw [Option.some.injEq]
    exact ⟨fun e => ⟨e, e ▸ h⟩, fun e => e.1⟩
  · rename_i h
    simp only [reduceCtorEq, false_iff]
    rintro ⟨rfl, h'⟩
    exact h h'

/-- The fields of a configuration that is read, each as its own reader gives it. -/
theorem readChannel_eq_some {f : ChannelFields} {n : Fin 8} {cfg : ChannelConfig} :
    readChannel f = some (n, cfg) ↔ readIndex 8 f.channel = some n
      ∧ readChannelMode f.mode = some cfg.mode ∧ readEdge cfg.mode f.edge = some cfg.edge
      ∧ readDivisor cfg.mode f.divisor = some cfg.divisor
      ∧ readRange 0 15 f.filter.toNat = some cfg.filter ∧ readYesNo f.queue = some cfg.queue := by
  obtain ⟨mode, edge, divisor, filter, queue⟩ := cfg
  unfold readChannel
  split
  · rename_i hn hm
    split
    · rename_i he hd hf hq
      constructor
      · intro h
        cases h
        exact ⟨hn, hm, he, hd, hf, hq⟩
      · rintro ⟨hn', hm', he', hd', hf', hq'⟩
        cases hn.symm.trans hn'
        cases hm.symm.trans hm'
        cases he.symm.trans he'
        cases hd.symm.trans hd'
        cases hf.symm.trans hf'
        cases hq.symm.trans hq'
        rfl
    · rename_i hno
      simp only [reduceCtorEq, false_iff]
      rintro ⟨-, hm', he', hd', hf', hq'⟩
      cases hm.symm.trans hm'
      exact hno _ _ _ _ he' hd' hf' hq'
  · rename_i hno
    simp only [reduceCtorEq, false_iff]
    rintro ⟨hn', hm', -⟩
    exact hno _ _ hn' hm'

/-! ## CHANNEL and CHANNEL_OFF -/

theorem enteredRun_eq (cfg : ChannelConfig) (pin : Level) : enteredRun cfg pin
    = if cfg.mode = .off then .off else if cfg.edge = .both then .armed pin none else .priming 0 := by
  unfold enteredRun
  cases cfg.mode <;> cases cfg.edge <;> rfl

/-- Settles O25: the refusal of a channel in use, the new configuration, and the codes read. -/
theorem channelConfiguresAnOffChannel : Obligations.ChannelConfiguresAnOffChannel := by
  refine ⟨fun f pin n cfg c s hf h => ⟨fun hr => ?state, fun hr => ?configures⟩, fun f n cfg => ?codes⟩
  case state =>
    refine h.replies (fun _ => rfl) (fun _ => ?_) rfl
    simp only [hostRule, channelRule, hf]
    exact if_pos hr
  case configures =>
    intro run
    have entered : enteredRun cfg (readInput n pin s).pins.inputs[n] = run := by
      rw [enteredRun_eq]
      simp [run]
    refine h.replies (fun _ => rfl) (fun _ => ?_) rfl
    simp only [hostRule, channelRule, hf]
    rw [if_neg (not_not.2 hr), entered]
    rfl
  case codes =>
    rw [readChannel_eq_some, readIndex_eq_some, readChannelMode_eq_some, readEdge_eq_some,
      readDivisor_eq_some, readRange_eq_some, readYesNo_eq_some]
    exact ⟨fun ⟨hn, hm, ⟨he, hw⟩, ⟨hd, h1, hd1⟩, ⟨hf, _, h15⟩, hq⟩ =>
        ⟨hn, hm, he, hw, hd, h1, hd1, hf, h15, hq⟩,
      fun ⟨hn, hm, he, hw, hd, h1, hd1, hf, h15, hq⟩ =>
        ⟨hn, hm, ⟨he, hw⟩, ⟨hd, h1, hd1⟩, ⟨hf, Nat.zero_le _, h15⟩, hq⟩⟩

theorem Channel.switchedOff_eq (ch : Channel) : ch.switchedOff
    = { ch with run := .off, edgeCount := 0, sampling :=
        if ch.sampling = .due then .inStep else ch.sampling } := by
  cases h : ch.sampling <;> simp [Channel.switchedOff, Sampling.atOff, h]

/-- Settles O26: the refusal past channel 7, the channel switched off, and one that was off. -/
theorem channelOffDiscardsTheWorkingState : Obligations.ChannelOffDiscardsTheWorkingState := by
  intro b c s h
  refine ⟨fun hb => ?_, fun n hn => ⟨setChannel n s.channels[n].switchedOff s, ?_, ?_, fun hl hr => ?_⟩⟩
  · refine h.replies (fun _ => rfl) (fun _ => ?_) rfl
    simp [hostRule, channelOffRule, readIndex_eq_none hb]
  · refine h.replies (fun _ => rfl) (fun _ => ?_) rfl
    simp only [hostRule, channelOffRule, readIndex_of hn]
    rfl
  · rw [Channel.switchedOff_eq]
    rfl
  · obtain ⟨hc, hs⟩ := hl.off hr
    have same : s.channels[n].switchedOff = s.channels[n] := by
      rw [Channel.switchedOff_eq, if_neg hs, ← hr, ← hc]
    rw [same]
    simp [setChannel]

end Sys2Proof.Machine
end

section
/-! A channel's samples and its transitions (R67 to R80). -/

namespace Sys2Proof.Machine

variable {s : State} {n : Fin 8} {pin : Level} {place : Sampling}

/-! ## A sample's place and its reading (R68) -/

/-- The state with a channel's sample taken: the pin recorded, and the channel with its run state and the
place of its samples replaced. -/
def sampled (n : Fin 8) (pin : Level) (run : ChannelRun) (place : Sampling) (s : State) : State :=
  (s.withPins { s.pins with inputs := s.pins.inputs.set n pin }).withChannels
    (s.channels.set n { s.channels[n] with run := run, sampling := place })

/-- Where a sample may be taken, and the place after it. -/
theorem afterSample_eq_some {x : Sampling} (h : x = .due ∧ place = .inStep
      ∨ x = .inStep ∧ s.time.prescaler ≤ s.time.count + 1 ∧ place = .ahead) :
    x.afterSample (periodEnds s) = some place := by
  rcases h with ⟨rfl, rfl⟩ | ⟨rfl, hp, rfl⟩
  · rfl
  · simp [Sampling.afterSample, periodEnds, hp]

@[simp] theorem sampled_channel (run : ChannelRun) : (sampled n pin run place s).channels[n.val]
    = { s.channels[n] with run := run, sampling := place } := by
  simp [sampled]

theorem sampled_run (run : ChannelRun) : (sampled n pin run place s).channels[n].run = run := by
  simp

theorem sampled_config (run : ChannelRun) :
    (sampled n pin run place s).channels[n].config = s.channels[n].config := by
  simp

theorem sampled_setRun (run run' : ChannelRun) :
    setChannel n { (sampled n pin run place s).channels[n.val] with run := run' }
      (sampled n pin run place s) = sampled n pin run' place s := by
  rw [sampled_channel]
  simp [setChannel, sampled]

theorem samplePriming_eq (n : Fin 8) (k : Nat) (w : State) : samplePriming n k w
    = setChannel n { w.channels[n.val] with
        run := if w.pins.inputs[n] ≠ w.channels[n].config.edge.preceding then ChannelRun.priming 0
          else if w.channels[n].config.filter + 1 ≤ k + 1
          then .armed w.channels[n].config.edge.preceding none else .priming (k + 1) } w := rfl

/-- A sample that is taken. -/
theorem exec_channelSample (hup : s.pins.resetActive = false) (hr : s.channels[n].run ≠ .off)
    (hp : s.channels[n].sampling.afterSample (periodEnds s) = some place) :
    exec (.channelSample n pin) s
      = .next (settle (takeSample n (sampled n pin s.channels[n].run place s))) :=
  execChannelSample_runs hup hr hp

/-- What a sample of an ARMED or MEASURING channel runs. -/
theorem takeSample_running {w : State} {v : Level} {p : Option Pending}
    (h : w.channels[n].run = .armed v p ∨ ∃ r, w.channels[n].run = .measuring v p r) :
    takeSample n w = sampleRunning n v p w := by
  rcases h with h | ⟨r, h⟩ <;> unfold takeSample <;> rw [h]

section Sample

variable (hup : s.pins.resetActive = false)
  (hplace : s.channels[n].sampling = .due ∧ place = .inStep
    ∨ s.channels[n].sampling = .inStep ∧ s.time.prescaler ≤ s.time.count + 1 ∧ place = .ahead)
include hup hplace

/-- A sample in which nothing counts moves the filter alone (R69). -/
theorem exec_channelSample_quiet {v v' : Level} {p p' : Option Pending} {run : ChannelRun}
    (hr : s.channels[n].run = .armed v p ∨ ∃ r, s.channels[n].run = .measuring v p r)
    (hf : filterSample s.channels[n].config.filter pin s.time.value v p = (v', p', none))
    (hrun : s.channels[n].run.filtered v' p' = run) :
    exec (.channelSample n pin) s = .next (settle (sampled n pin run place s)) := by
  have on : s.channels[n].run ≠ .off := by
    rcases hr with h | ⟨r, h⟩ <;> rw [h] <;> exact nofun
  have stands : (sampled n pin s.channels[n].run place s).channels[n].run = s.channels[n].run :=
    sampled_run _
  rw [exec_channelSample hup on (afterSample_eq_some hplace),
    takeSample_running (by rw [stands]; exact hr),
    sampleRunning_quiet (v' := v') (p' := p') (by simpa [sampled] using hf), ← hrun]
  refine congrArg (fun x => Host.Outcome.next (settle x)) ?_
  rw [show (sampled n pin s.channels[n].run place s).channels[n.val].run = s.channels[n].run
    from stands]
  exact sampled_setRun ..

/-- A sample of a PRIMING channel (R71). -/
theorem exec_channelSample_priming {k : Nat} (hr : s.channels[n].run = .priming k) :
    exec (.channelSample n pin) s = .next (settle (sampled n pin
      (if pin ≠ s.channels[n].config.edge.preceding then .priming 0
        else if k + 1 < s.channels[n].config.filter + 1 then .priming (k + 1)
        else .armed s.channels[n].config.edge.preceding none) place s)) := by
  have on : s.channels[n].run ≠ .off := by rw [hr]; exact nofun
  have stands : (sampled n pin s.channels[n].run place s).channels[n].run = .priming k :=
    (sampled_run _).trans hr
  have config : (sampled n pin s.channels[n].run place s).channels[n].config
      = s.channels[n].config := sampled_config _
  have level : (sampled n pin s.channels[n].run place s).pins.inputs[n] = pin := by
    simp [sampled]
  rw [exec_channelSample hup on (afterSample_eq_some hplace)]
  refine congrArg (fun x => Host.Outcome.next (settle x)) ?_
  unfold takeSample
  rw [stands]
  dsimp only
  rw [samplePriming_eq, sampled_setRun, config, level]
  refine congrArg (fun run => sampled n pin run place s) ?_
  by_cases hp : pin = s.channels[n].config.edge.preceding
  · rw [if_neg (not_not.2 hp), if_neg (not_not.2 hp)]
    split
    · rw [if_neg (by omega)]
    · rw [if_pos (by omega)]
  · rw [if_pos hp, if_pos hp]

end Sample

/-- Settles O27: the samples that are not taken; PRIMING's; and the filter's rows in which nothing
counts. -/
theorem sampleThatCountsNothingMovesTheFilterOnly :
    Obligations.SampleThatCountsNothingMovesTheFilterOnly := by
  refine ⟨fun n pin s hup h => ?none, fun n pin place s hup => ?taken⟩
  case none =>
    rcases h with h | h | ⟨h, hp⟩
    · refine exec_of_eventOf_none (.inl rfl) rfl fun _ => ?_
      exact if_pos h
    · refine execChannelSample_waits pin ?_
      rw [show s.channels[n.val].sampling = .ahead from h]
      rfl
    · refine execChannelSample_waits pin ?_
      rw [show s.channels[n.val].sampling = .inStep from h]
      simp [Sampling.afterSample, periodEnds, hp]
  case taken =>
    intro ch hplace goTo
    refine ⟨?priming, ?settledArmed, ?seenArmed, ?heldArmed, ?droppedArmed, ?settledMeasuring,
      ?seenMeasuring, ?heldMeasuring, ?droppedMeasuring⟩
    case priming =>
      intro k before hr hb
      have departs : before = ch.config.edge.preceding := by
        rcases hb with ⟨rfl, h | h⟩ | ⟨rfl, h | h⟩ <;> rw [h] <;> rfl
      rw [departs]
      exact exec_channelSample_priming hup hplace hr
    case settledArmed =>
      rintro v hr rfl
      exact exec_channelSample_quiet hup hplace (.inl hr) (filterSample_settled ..)
        (congrArg (ChannelRun.filtered _ _) hr)
    case seenArmed =>
      intro v hr hne hf
      exact exec_channelSample_quiet hup hplace (.inl hr) (filterSample_seen _ hne hf)
        (congrArg (ChannelRun.filtered _ _) hr)
    case heldArmed =>
      rintro v p hr rfl hf
      exact exec_channelSample_quiet hup hplace (.inl hr) (filterSample_held _ _ hf)
        (congrArg (ChannelRun.filtered _ _) hr)
    case droppedArmed =>
      intro v p hr hne
      exact exec_channelSample_quiet hup hplace (.inl hr) (filterSample_dropped _ _ _ hne)
        (congrArg (ChannelRun.filtered _ _) hr)
    case settledMeasuring =>
      rintro v r hr rfl
      exact exec_channelSample_quiet hup hplace (.inr ⟨r, hr⟩) (filterSample_settled ..)
        (congrArg (ChannelRun.filtered _ _) hr)
    case seenMeasuring =>
      intro v r hr hne hf
      exact exec_channelSample_quiet hup hplace (.inr ⟨r, hr⟩) (filterSample_seen _ hne hf)
        (congrArg (ChannelRun.filtered _ _) hr)
    case heldMeasuring =>
      rintro v p r hr rfl hf
      exact exec_channelSample_quiet hup hplace (.inr ⟨r, hr⟩) (filterSample_held _ _ hf)
        (congrArg (ChannelRun.filtered _ _) hr)
    case droppedMeasuring =>
      intro v p r hr hne
      exact exec_channelSample_quiet hup hplace (.inr ⟨r, hr⟩) (filterSample_dropped _ _ _ hne)
        (congrArg (ChannelRun.filtered _ _) hr)

/-! ## A transition that counts (R69, R70) -/

/-- A transition touches the channels and the hand-overs alone. -/
theorem takeTransition_frame (n : Fin 8) (q : Level) (t : Time) (w : State) : takeTransition n q t w
    = (w.withChannels (takeTransition n q t w).channels).withHanded (takeTransition n q t w).handed := by
  have keeps := takeTransition_keeps n q t w
  generalize takeTransition n q t w = u at keeps ⊢
  cases u
  cases w
  simp_all [State.withChannels, State.withHanded]

/-- Settles O28: the filter's rows in which a transition counts. -/
theorem sampleThatCountsTakesTheTransition : Obligations.SampleThatCountsTakesTheTransition := by
  intro n pin v p place s hup ch hplace hr hp stamp u
  let run : ChannelRun := match ch.run with
    | .measuring _ _ r => .measuring pin none r
    | _ => .armed pin none
  have begun : u = takeTransition n pin stamp (sampled n pin run place s) := rfl
  have on : s.channels[n].run ≠ .off := by
    rcases hr with h | ⟨r, h⟩ <;> rw [h] <;> exact nofun
  have counts : filterSample s.channels[n].config.filter pin s.time.value v p
      = (pin, none, some (pin, stamp)) := by
    cases p with
    | none =>
      obtain ⟨hne, hf⟩ := hp
      rw [hf]
      exact filterSample_at_once _ hne
    | some x =>
      obtain ⟨rfl, hf⟩ := hp
      exact filterSample_counts _ _ hf
  have filtered : s.channels[n].run.filtered pin none = run := by
    rcases hr with h | ⟨r, h⟩ <;> simp only [run, ch] at h ⊢ <;> rw [h] <;> rfl
  have stands : (sampled n pin s.channels[n].run place s).channels[n].run = s.channels[n].run :=
    sampled_run _
  obtain ⟨config, sampling, acks⟩ := takeTransition_kept n pin stamp (sampled n pin run place s)
  rw [sampled_channel] at config sampling
  refine ⟨?_, fun m hm => ?_, sampling, config, acks, takeTransition_frame ..⟩
  · rw [exec_channelSample hup on (afterSample_eq_some hplace),
      takeSample_running (by rw [stands]; exact hr),
      sampleRunning_counts (v' := pin) (p' := none) (q := pin) (t := stamp)
        (by simpa [sampled] using counts), begun]
    refine congrArg (fun x => Host.Outcome.next (settle (takeTransition n pin stamp x))) ?_
    rw [show (sampled n pin s.channels[n].run place s).channels[n.val].run = s.channels[n].run
      from stands, filtered]
    exact sampled_setRun ..
  · refine (takeTransition_other hm pin stamp (sampled n pin run place s)).trans ?_
    have := Fin.val_ne_of_ne hm.symm
    simp [sampled, this]

/-! ## The events of transitions (R70, R73 to R80) -/

theorem selects_iff (e : EdgeSelection) (q : Level) : e.selects (directionTo q) = true
    ↔ e = .both ∨ e = .rising ∧ q = .high ∨ e = .falling ∧ q = .low := by
  cases e <;> cases q <;> decide

theorem leads_iff (e : EdgeSelection) (q : Level) : e.leads (directionTo q) = true
    ↔ e = .high ∧ q = .high ∨ e = .low ∧ q = .low := by
  cases e <;> cases q <;> decide

/-- A measurement's value and its OVER flag (R77). -/
theorem measure_eq (t r : Time) : measure t r
    = (if t < r then (0 : BitVec 32) else
        if t - r ≤ 4294967295 then BitVec.ofNat 32 (t - r) else 4294967295,
      decide (t < r ∨ 4294967295 < t - r)) := by
  unfold measure maxMeasure
  by_cases h : t < r
  · simp [h]
  · by_cases hm : t - r ≤ 4294967295
    · simp [h, hm]
    · have : 4294967295 < t - r := Nat.lt_of_not_le hm
      simp [h, hm, this]

/-- An event of a channel that a transition has brought to a state. -/
theorem formEvent_set (n : Fin 8) (x : Channel) (o : StampOffer) (t : Time) (s : State)
    (hq : x.config.queue = s.channels[n].config.queue) :
    formEvent n o t (s.withChannels (s.channels.set n x))
      = (s.withChannels (s.channels.set n { x with events := x.events + 1 })).withHanded
        { s.handed with
          offers := s.handed.offers ++ (if s.channels[n].config.queue then [o] else [])
          events := s.handed.events ++ [⟨.channel n, t⟩] } := by
  rw [formEvent_eq, ← hq]
  simp [setChannel]

/-- Settles O29, by the mode, the edge, the divisor and the run state. -/
theorem transitionsFormTheModesEvents : Obligations.TransitionsFormTheModesEvents := by
  intro n q t s ch edge set event selected leading value past
  have direction : edge = directionTo q := by cases q <;> rfl
  have selects : ch.config.edge.selects (directionTo q) = true ↔ selected := selects_iff ..
  have leads : ch.config.edge.leads (directionTo q) = true ↔ leading := leads_iff ..
  have measured : ∀ r, measure t r = (value r, past r) := measure_eq t
  have atEdge : ch.config.mode = .edge → takeTransition n q t s
      = if ch.config.edge.selects (directionTo q) then
          if (divide ch.config.divisor ch.edgeCount).1 then
            edgeEvent n (directionTo q) t
              (set { ch with edgeCount := (divide ch.config.divisor ch.edgeCount).2 })
          else set { ch with edgeCount := (divide ch.config.divisor ch.edgeCount).2 }
        else s := fun hm => by
    unfold takeTransition
    dsimp only
    rw [show s.channels[n].config.mode = .edge from hm]
    rfl
  have atPeriod : ch.config.mode = .period → takeTransition n q t s
      = if ch.config.edge.selects (directionTo q) then
          if (divide ch.config.divisor ch.edgeCount).1 then
            periodEdge n t (set { ch with edgeCount := (divide ch.config.divisor ch.edgeCount).2 })
          else set { ch with edgeCount := (divide ch.config.divisor ch.edgeCount).2 }
        else s := fun hm => by
    unfold takeTransition
    dsimp only
    rw [show s.channels[n].config.mode = .period from hm]
    rfl
  have atWidth : ch.config.mode = .width → takeTransition n q t s = widthEdge n (directionTo q) t s :=
    fun hm => by
      unfold takeTransition
      dsimp only
      rw [show s.channels[n].config.mode = .width from hm]
  have own : ∀ x, (set x).channels[n] = x := fun x => by simp [set]
  have again : ∀ x y, setChannel n y (set x) = set y := fun x y => by simp [set, setChannel]
  refine ⟨fun hm hs => ?unselected, fun hm hs hd => ?below, fun hm hs hd => ?edge,
    fun v p hm hs hd hr => ?first, fun v p r hm hs hd hr => ?later, fun v p hm hl hr => ?lead,
    fun v p r hm hl hr => ?trail⟩
  case unselected =>
    rcases hm with hm | hm
    · rw [atEdge hm, if_neg (mt selects.1 hs)]
    · rw [atPeriod hm, if_neg (mt selects.1 hs)]
  case below =>
    rcases hm with hm | hm
    · rw [atEdge hm, if_pos (selects.2 hs), divide_below hd]
      rfl
    · rw [atPeriod hm, if_pos (selects.2 hs), divide_below hd]
      rfl
  case edge =>
    rw [atEdge hm, if_pos (selects.2 hs), divide_at hd, direction]
    exact formEvent_set n { ch with edgeCount := 0 } _ t s rfl
  case first =>
    rw [atPeriod hm, if_pos (selects.2 hs), divide_at hd]
    simp only [if_true]
    unfold periodEdge
    dsimp only
    rw [own]
    dsimp only
    rw [hr]
    exact again ..
  case later =>
    rw [atPeriod hm, if_pos (selects.2 hs), divide_at hd]
    simp only [if_true]
    unfold periodEdge
    dsimp only
    rw [own]
    dsimp only
    rw [hr]
    dsimp only
    rw [again, measured]
    exact formEvent_set n { ch with edgeCount := 0, run := .measuring v p t } _ t s rfl
  case lead =>
    rw [atWidth hm]
    unfold widthEdge
    dsimp only
    rw [show s.channels[n].run = .armed v p from hr]
    exact if_pos (leads.2 hl)
  case trail =>
    rw [atWidth hm]
    unfold widthEdge
    dsimp only
    rw [show s.channels[n].run = .measuring v p r from hr]
    dsimp only
    rw [if_neg (mt leads.1 hl), measured]
    exact formEvent_set n { ch with run := .armed v p } _ t s rfl

end Sys2Proof.Machine
end

section
/-! The sampler: SAMPLER, WINDOW, and the stages of a conversion (R92 to R98). -/

namespace Sys2Proof.Machine

variable {c : QueuedCommand} {s : State}

/-! ## SAMPLER (R95 to R97) -/

theorem startedConverter_eq (s : State) : startedConverter s
    = if s.sampler.recoveryEnd.any (fun m => s.now < m) then .recovering else .idle := by
  unfold startedConverter
  cases s.sampler.recoveryEnd <;> simp

theorem samplerOn_eq (s : State) : samplerOn s = s.withSampler { s.sampler with
    conv := if s.sampler.conv = .off then startedConverter s else s.sampler.conv } := by
  unfold samplerOn
  cases h : s.sampler.conv with
  | off => rfl
  | idle | acquiring _ _ | converting _ _ _ | recovering =>
    rw [if_neg nofun]
    dsimp only
    rw [← h]
    rfl

theorem switchSampler_off (t : Nat) (s : State) : switchSampler false t s = s.withSampler { s.sampler with
    conv := .off, acquisition := t
    recoveryEnd := if s.sampler.conv.inProgress = true then some (s.now + 3)
      else s.sampler.recoveryEnd } := rfl

theorem switchSampler_on (t : Nat) (s : State) : switchSampler true t s = s.withSampler { s.sampler with
    conv := if s.sampler.conv = .off then
        (if s.sampler.recoveryEnd.any (fun m => s.now < m) then .recovering else .idle)
      else s.sampler.conv
    acquisition := t } := by
  refine (samplerOn_eq _).trans ?_
  rw [startedConverter_eq]
  rfl

/-- Settles O30: the refusal of a new time, and then the converter by the enable. -/
theorem samplerSwitchesTheConverter : Obligations.SamplerSwitchesTheConverter := by
  intro enable acquisition c s hw h
  have range : enable.toNat ≤ 1 ∧ 2 ≤ acquisition.toNat ∧ acquisition.toNat ≤ 255 := by
    simp only [inRange, wellFormed, decide_eq_true_eq] at hw
    have := acquisition.isLt
    omega
  have rule : samplerRule enable acquisition c s
      = if acquisition.toNat ≠ s.sampler.acquisition ∧ s.sampler.conv.takenUp = true
        then answer c .state [] s
        else answer c .ok (samplerFields (switchSampler (enable == 1) acquisition.toNat s))
          (switchSampler (enable == 1) acquisition.toNat s) := by
    simp only [samplerRule, readYesNo_of range.1, readRange_of range.2]
  refine ⟨fun ha ht => ?state, fun ht => ?switches⟩
  case state => exact h.replies (fun _ => rfl) (fun _ => rule.trans (if_pos ⟨ha, ht⟩)) rfl
  case switches =>
    intro conv recovery
    have free : ¬(acquisition.toNat ≠ s.sampler.acquisition ∧ s.sampler.conv.takenUp = true) :=
      fun ⟨ha, hu⟩ => absurd ((ht ha).symm.trans hu) (by simp)
    have switched : switchSampler (enable == 1) acquisition.toNat s = s.withSampler { s.sampler with
        conv := conv, acquisition := acquisition.toNat, recoveryEnd := recovery } := by
      have : enable = 0 ∨ enable = 1 := by
        have := range.1
        bv_omega
      rcases this with rfl | rfl
      · have off : conv = .off := if_pos rfl
        have aborted : recovery = if s.sampler.conv.inProgress = true then some (s.now + 3)
            else s.sampler.recoveryEnd := by simp [recovery]
        rw [off, aborted]
        exact switchSampler_off ..
      · have on : conv = if s.sampler.conv = .off then
            (if s.sampler.recoveryEnd.any (fun m => s.now < m) then .recovering else .idle)
            else s.sampler.conv := if_neg (by decide)
        have kept : recovery = s.sampler.recoveryEnd := if_neg fun e => absurd e.1 (by decide)
        rw [on, kept]
        exact switchSampler_on ..
    refine h.replies (fun _ => rfl) (fun _ => rule.trans ?_) rfl
    rw [if_neg free, switched]
    simp [samplerFields]

/-! ## WINDOW (R98) -/

/-- Settles O31, by the fields read. -/
theorem windowSetsOneInputAndForgetsItsZone : Obligations.WindowSetsOneInputAndForgetsItsZone := by
  intro input low high queue i c s hi hw h
  simp only [inRange, wellFormed, decide_eq_true_eq] at hw
  obtain ⟨-, hl, hh, hlh, hq⟩ := hw
  have read : readWindow input low high queue = some (i, low.toNat, high.toNat, queue == 1) := by
    simp only [readWindow, readIndex_of hi, readRange_of ⟨Nat.zero_le _, hl⟩, readRange_of ⟨hlh, hh⟩,
      readYesNo_of hq]
  have code : boolCode (queue == 1) = queue := by
    have : queue = 0 ∨ queue = 1 := by bv_omega
    rcases this with rfl | rfl <;> rfl
  refine h.replies (fun _ => rfl) (fun _ => ?_) rfl
  simp only [hostRule, windowRule, read, windowFields, code]
  rfl

/-! ## The stages of a conversion (R92 to R94, R97) -/

theorem zoneEntry_eq (z : Option ZoneClass) (cls : ZoneClass) :
    zoneEntry z cls = decide (z.isSome ∧ z ≠ some cls) := by
  cases z <;> simp [zoneEntry]

/-- What a result offers and sets (R93, R94). -/
theorem takeResult_eq (ctx : ConvContext) (result : BitVec 12) (s : State) : takeResult ctx result s
    = let x := s.sampler.inputs[ctx.input]
      let cls := classify x.low x.high result
      (s.withSampler { s.sampler with
        inputs := s.sampler.inputs.set ctx.input { x with zone := some cls } }).withHanded
        { s.handed with
          offers := s.handed.offers ++ (if x.queue then
            [⟨.sample ctx.input result cls ctx.late ctx.label, ctx.fireTick⟩] else [])
          events := s.handed.events ++ (if x.zone.isSome ∧ x.zone ≠ some cls then
            [⟨.zone ctx.input cls, ctx.fireTick⟩] else []) } := by
  unfold takeResult
  dsimp only
  rw [zoneEntry_eq]
  generalize s.sampler.inputs[ctx.input] = x
  by_cases hz : x.zone.isSome ∧ x.zone ≠ some (classify x.low x.high result)
  · rw [decide_eq_true hz, if_pos rfl, if_pos hz]
    cases x.queue
    · simp only [Bool.false_eq_true, if_false, List.append_nil]
      rfl
    · rfl
  · rw [decide_eq_false hz, if_neg (by simp), if_neg hz, List.append_nil]
    cases x.queue
    · simp only [Bool.false_eq_true, if_false, List.append_nil]
      rfl
    · rfl

/-- Settles O32, stage by stage. -/
theorem conversionStagesEndInAClassedResult : Obligations.ConversionStagesEndInAClassedResult := by
  intro s hup
  refine ⟨fun ctx endAt level hc => ?acquired, fun ctx held endAt hc => ?converted,
    fun m hm => ?recovered⟩
  case acquired =>
    refine exec_of_eventOf (.inl rfl) rfl hup ?_
    simp [eventOf, hc, readAnalog, reach, Config.conversionMicros]
  case converted =>
    refine exec_of_eventOf (.inl rfl) rfl hup ?_
    simp only [eventOf, hc, takeResult_eq]
    rfl
  case recovered =>
    refine exec_of_eventOf (.inl rfl) rfl hup ?_
    refine (congrArg (Option.map _) hm).trans (congrArg some ?_)
    dsimp only [reach, withNow_sampler]
    cases hc : s.sampler.conv with
    | recovering => rfl
    | off | idle | acquiring _ _ | converting _ _ _ =>
      rw [if_neg nofun]
      dsimp only
      rw [← hc]
      rfl

end Sys2Proof.Machine
end

section
/-! The Trigger Table: TRIGGER, TRIGGER_ARM, TRIGGER_CLEAR, a source event's visit, and the answers to requests
(R104 to R116). -/

namespace Sys2Proof.Machine

variable {c : QueuedCommand} {s : State}

/-! ## Readings (R114, R196, R197) -/

theorem readAtLimit_eq_some {b : Byte} {a : AtLimit} :
    readAtLimit b = some a ↔ b = match a with | .ignore => 0 | .replaceOldest => 1 := by
  unfold readAtLimit
  split
  case h_1 h | h_2 h => cases a <;> simp [BitVec.toNat_eq, h]
  case h_3 h0 h1 => cases a <;> simp_all [BitVec.toNat_eq]

theorem readZone_eq_some {b : Byte} {z : ZoneClass} :
    readZone b = some z ↔ b = match z with | .below => 1 | .inside => 2 | .above => 3 := by
  unfold readZone
  split
  case h_1 h | h_2 h | h_3 h => cases z <;> simp [BitVec.toNat_eq, h]
  case h_4 h1 h2 h3 => cases z <;> simp_all [BitVec.toNat_eq]

/-- A zone's input and class, read together. -/
theorem readZoneSource_eq_some {f : TriggerFields} {src : EventSource} :
    (match readIndex 4 f.sourceNumber, readZone f.sourceZone with
      | some i, some z => some (EventSource.zone i z)
      | _, _ => none) = some src
    ↔ ∃ i z, src = .zone i z ∧ readIndex 4 f.sourceNumber = some i ∧ readZone f.sourceZone = some z := by
  cases readIndex 4 f.sourceNumber <;> cases readZone f.sourceZone <;> simp [eq_comm]

theorem readEventSource_eq_some {f : TriggerFields} {src : EventSource} :
    readEventSource f = some src ↔ match src with
      | .channel n => f.sourceKind = 0 ∧ f.sourceNumber.toNat = n.val
      | .zone i z => f.sourceKind = 1 ∧ f.sourceNumber.toNat = i.val
          ∧ f.sourceZone = (match z with | .below => 1 | .inside => 2 | .above => 3)
      | .label l => f.sourceKind = 2 ∧ f.sourceLabel = l ∧ l ≠ 0 := by
  unfold readEventSource
  split
  case h_1 h => cases src <;> simp [BitVec.toNat_eq, h, readIndex_eq_some]
  case h_2 h =>
    refine (readZoneSource_eq_some (f := f)).trans ?_
    cases src
    case zone i z =>
      constructor
      · rintro ⟨_, _, e, hi, hz⟩
        cases e
        exact ⟨BitVec.eq_of_toNat_eq h, readIndex_eq_some.1 hi, readZone_eq_some.1 hz⟩
      · rintro ⟨-, hi, hz⟩
        exact ⟨i, z, rfl, readIndex_eq_some.2 hi, readZone_eq_some.2 hz⟩
    all_goals simp [BitVec.toNat_eq, h]
  case h_3 h =>
    split
    · rename_i hl
      cases src
      case label l =>
        simp only [reduceCtorEq, false_iff]
        rintro ⟨-, rfl, h0⟩
        exact h0 hl
      all_goals simp [BitVec.toNat_eq, h]
    · rename_i hl
      cases src
      case label l =>
        simp only [Option.some.injEq, EventSource.label.injEq]
        exact ⟨fun e => ⟨BitVec.eq_of_toNat_eq h, e, e ▸ hl⟩, fun e => e.2.1⟩
      all_goals simp [BitVec.toNat_eq, h]
  case h_4 h0 h1 h2 => cases src <;> simp_all [BitVec.toNat_eq]

/-- The fields of a definition that is read, each as its own reader gives it. -/
theorem readTriggerDef_eq_some {f : TriggerFields} {k : Fin 16} {d : TriggerDef} :
    readTriggerDef f = some (k, d) ↔ readIndex 16 f.slot = some k
      ∧ readEventSource f = some d.source ∧ readRange 1 8 f.limit.toNat = some d.limit
      ∧ readAtLimit f.atLimit = some d.atLimit ∧ readBody f.template = some d.template
      ∧ f.shots.toNat = d.shots ∧ f.delay.toNat = d.delay ∧ d.delay ≠ 0 := by
  obtain ⟨source, shots, delay, limit, atLimit, template⟩ := d
  have zero : f.delay = 0 ↔ f.delay.toNat = 0 := BitVec.toNat_inj.symm
  unfold readTriggerDef
  split
  · rename_i hk hs hl ha hb
    split
    · rename_i hd
      simp only [reduceCtorEq, false_iff]
      rintro ⟨-, -, -, -, -, -, rfl, h0⟩
      exact h0 (zero.1 hd)
    · rename_i hd
      constructor
      · intro h
        cases h
        exact ⟨hk, hs, hl, ha, hb, rfl, rfl, fun e => hd (zero.2 e)⟩
      · rintro ⟨hk', hs', hl', ha', hb', rfl, rfl, -⟩
        cases hk.symm.trans hk'
        cases hs.symm.trans hs'
        cases hl.symm.trans hl'
        cases ha.symm.trans ha'
        cases hb.symm.trans hb'
        rfl
  · rename_i hno
    simp only [reduceCtorEq, false_iff]
    rintro ⟨hk', hs', hl', ha', hb', -⟩
    exact hno _ _ _ _ _ hk' hs' hl' ha' hb'

/-! ## TRIGGER and TRIGGER_ARM -/

/-- A command of the Trigger Table that executes need not wait. -/
theorem Executes.ready_of_trigger {i : Extent → Instr} (h : Executes i c s) {k : Byte} {p : Payload}
    (hf : ∀ go, frameOf (i go) = some (k, p)) (hk : k ∈ triggerKinds) (go : Extent) :
    hostReady (i go) s = true := by
  have kind : k = c.kind := (Prod.mk.inj (Option.some.inj ((hf go).symm.trans (h.frame go)))).1
  exact (hostReady_of_trigger (hf go) hk).trans (h.unclaimed (kind ▸ hk))

theorem rearm_eq (target : ArmState) (d : TriggerDef) (st : ArmState) (left : Nat) (l : List Handle) :
    rearm target d st left l = .defined d target (if st = .spent then d.shots else left) l := by
  cases st <;> rfl

theorem readTarget_of {b : Byte} (h : b.toNat = 1 ∨ b.toNat = 2) :
    readTarget b = some (if b = 1 then .armed else .paused) := by
  have : b = 1 ∨ b = 2 := by bv_omega
  rcases this with rfl | rfl <;> rfl

theorem armCode_of {b : Byte} (h : b.toNat = 1 ∨ b.toNat = 2) (d : TriggerDef) (n : Nat)
    (l : List Handle) : (SlotUse.defined d (if b = 1 then .armed else .paused) n l).code = b := by
  have : b = 1 ∨ b = 2 := by bv_omega
  rcases this with rfl | rfl <;> rfl

/-- Settles O33: TRIGGER by its slot, TRIGGER_ARM by its slot, and the codes read. -/
theorem triggerDefinesAndArmMovesASlot : Obligations.TriggerDefinesAndArmMovesASlot := by
  refine ⟨fun c s => ⟨fun f k d hf h => ?define, fun slot target k hk hw h => ?arm⟩,
    fun f k d => ?codes⟩
  case define =>
    have ready := h.ready_of_trigger (fun _ => rfl) (by decide)
    refine ⟨fun hu => ?_, fun hu => ?_⟩
    · refine h.replies ready (fun _ => ?_) rfl
      simp only [hostRule, triggerRule, hf]
      exact if_pos hu
    · refine h.replies ready (fun _ => ?_) rfl
      simp only [hostRule, triggerRule, hf]
      rw [if_neg (not_not.2 hu)]
      simp [armFields, SlotUse.code, SlotUse.shots, setTriggerSlot]
  case arm =>
    have ready := h.ready_of_trigger (fun _ => rfl) (by decide)
    have range : target.toNat = 1 ∨ target.toNat = 2 := by
      simp only [inRange, wellFormed, decide_eq_true_eq] at hw
      exact hw.2
    refine ⟨fun hu => ?_, fun d st left l hu => ?_⟩
    · refine h.replies ready (fun _ => ?_) rfl
      simp only [hostRule, triggerArmRule, readIndex_of hk, readTarget_of range]
      rw [hu]
    · intro left'
      refine h.replies ready (fun _ => ?_) rfl
      simp only [hostRule, triggerArmRule, readIndex_of hk, readTarget_of range]
      rw [hu]
      dsimp only
      rw [rearm_eq, armFields, armCode_of range, be_one]
      rfl
  case codes =>
    rw [readTriggerDef_eq_some, readIndex_eq_some, readEventSource_eq_some, readRange_eq_some,
      readAtLimit_eq_some]
    exact ⟨fun ⟨hk, hs, ⟨hl, h1, h8⟩, ha, hb, hn, hd, h0⟩ => ⟨hk, hs, hl, h1, h8, ha, hn, hd, h0, hb⟩,
      fun ⟨hk, hs, hl, h1, h8, ha, hn, hd, h0, hb⟩ => ⟨hk, hs, ⟨hl, h1, h8⟩, ha, hb, hn, hd, h0⟩⟩

/-! ## TRIGGER_CLEAR (R116) -/

/-- Nothing is left of an execution that has made no reply. -/
theorem goOn_unmade (h : ∀ r, s.cmd.progress ≠ .replying r) (go : Extent) : goOn go s = s := by
  cases go with
  | oneClaim => rfl
  | toReply => exact fillMade_none h

theorem cancelHandle_eq (x : Handle) (s : State) : cancelHandle x s
    = match s.table.records.find? (fun r => r.handle = x) with
      | some r => removeRecord r .cancelled s.time.value s
      | none => s := by
  unfold cancelHandle findRecord
  cases s.table.records.find? (fun r => r.handle = x) <;> rfl

theorem cancelHandle_queue (x : Handle) (s : State) : (cancelHandle x s).cmd = s.cmd := by
  unfold cancelHandle
  split <;> simp

/-- Settles O34: the slot's ways, and then the cancel requests one after another. -/
theorem triggerClearEmptiesTheSlotAndCancels : Obligations.TriggerClearEmptiesTheSlotAndCancels := by
  intro c s
  refine ⟨fun slot disposal k hk hw h => ?clear, fun x rest count hup hc => ?request⟩
  case clear =>
    intro emptied
    have ready := h.ready_of_trigger (fun _ => rfl) (by decide)
    have range : disposal.toNat ≤ 1 := by
      simp only [inRange, wellFormed, decide_eq_true_eq] at hw
      exact hw.2
    have empty : s.triggers.slots[k].use = .empty →
        triggerClearRule slot disposal c s = answer c .noSuch [] s := fun hu => by
      simp only [triggerClearRule, readIndex_of hk, readYesNo_of range, hu]
    have defined : ∀ {d st left l}, s.triggers.slots[k].use = .defined d st left l →
        triggerClearRule slot disposal c s
          = let u := setTriggerSlot k { s.triggers.slots[k] with use := .empty } s
            if (disposal == 1) = true ∧ l ≠ [] then setClaim (some (.clearing l l.length)) u
            else answer c .ok (be 1 l.length) u := fun hu => by
      simp only [triggerClearRule, readIndex_of hk, readYesNo_of range, hu]
    refine ⟨fun hu => ?_, fun d st left l hu => ⟨fun hd => ?_, fun hd hl go => ?_⟩⟩
    · exact h.replies ready (fun _ => empty hu) rfl
    · have keeps : ¬((disposal == 1) = true ∧ l ≠ []) := by
        rintro ⟨h1, hne⟩
        rcases hd with rfl | hd
        · exact absurd h1 (by decide)
        · exact hne hd
      refine h.replies ready (fun _ => (defined hu).trans ?_) rfl
      dsimp only
      rw [if_neg keeps, be_one]
      rfl
    · have cancels : (disposal == 1) = true ∧ l ≠ [] := ⟨by simp [hd], hl⟩
      have left : hostRule (.triggerClear slot disposal go) c s = s.withTriggers
          { slots := emptied, claim := some (.clearing l l.length) } := by
        refine (defined hu).trans ?_
        dsimp only
        rw [if_pos cancels]
        rfl
      rw [h.exec go (ready go), left, goOn_unmade (by simp [h.may.start.fresh])]
      rfl
  case request =>
    intro u
    have cancelled : cancelHandle x s = u := cancelHandle_eq x s
    have event : ∀ go, eventOf (.triggerCancelRequest go) s = if rest.isEmpty
        then some (goOn go (endClear count (setClaim none u)))
        else some (setClaim (some (.clearing rest count)) u) := fun go => by
      simp only [eventOf, hc, cancelled]
    refine ⟨fun hr go => ?_, fun hr ho => ?_⟩
    · refine exec_of_eventOf (.inr rfl) rfl hup ((event go).trans ?_)
      rw [if_neg (by simpa using hr)]
      rfl
    · have queue : (setClaim none u).cmd.queue.head? = some c := by
        rw [← cancelled]
        show (cancelHandle x s).cmd.queue.head? = some c
        rw [cancelHandle_queue]
        exact ho
      refine replies_of_answer (fun go => ?_) queue
      refine exec_of_eventOf (.inr rfl) rfl hup ((event go).trans ?_)
      obtain ⟨l, hl⟩ := List.head?_eq_some_iff.1 queue
      rw [if_pos (by simp [hr]), endClear, hl]
      dsimp only
      rw [be_one]
      rfl

/-! ## A source event's visit (R104 to R108) -/

section Visit

variable {e : SourceEvent} {k : Fin 16} {ks : List (Fin 16)} {d : TriggerDef} {n : Nat}
  {l : List Handle}

/-- A slot below its limit hands over a plain request (R106). -/
theorem visitSlots_plain (hu : s.triggers.slots[k].use = .defined d .armed n l)
    (hd : d.source = e.source) (hl : l.length < d.limit) : visitSlots e (k :: ks) s
      = s.withTriggers { s.triggers with
          claim := some (.event e ⟨k, d.template, e.time + d.delay, none⟩) } := by
  rw [visitSlots, hu]
  dsimp only
  rw [if_neg (not_not.2 hd), if_pos hl]
  rfl

/-- A slot at its limit under REPLACE_OLDEST names its oldest handle (R108). -/
theorem visitSlots_replace (hu : s.triggers.slots[k].use = .defined d .armed n l)
    (hd : d.source = e.source) (hl : d.limit ≤ l.length) (ha : d.atLimit = .replaceOldest) :
    visitSlots e (k :: ks) s = s.withTriggers { s.triggers with
      claim := some (.event e ⟨k, d.template, e.time + d.delay, l.head?⟩) } := by
  rw [visitSlots, hu]
  dsimp only
  rw [if_neg (not_not.2 hd), if_neg (Nat.not_lt.2 hl), ha]
  rfl

/-- A slot at its limit under IGNORE counts a miss, and the visit goes on (R107). -/
theorem visitSlots_ignore (hu : s.triggers.slots[k].use = .defined d .armed n l)
    (hd : d.source = e.source) (hl : d.limit ≤ l.length) (ha : d.atLimit = .ignore) :
    visitSlots e (k :: ks) s = visitSlots e ks (countMiss k s) := by
  rw [visitSlots, hu]
  dsimp only
  rw [if_neg (not_not.2 hd), if_neg (Nat.not_lt.2 hl), ha]

end Visit

/-- A visit in which no slot responds ends the claim and changes nothing else. -/
theorem visitSlots_none {e : SourceEvent} {ks : List (Fin 16)}
    (h : ∀ j ∈ ks, ¬∃ d n l, s.triggers.slots[j].use = .defined d .armed n l ∧ d.source = e.source)
    (hc : s.triggers.claim = none) : visitSlots e ks s = s := by
  have skipped := visitSlots_skip e s ks [] h
  rw [List.append_nil] at skipped
  rw [skipped]
  show s.withTriggers { s.triggers with claim := none } = s
  rw [← hc]
  rfl

/-- Settles O35: the visit slot by slot, and the whole visit by its lowest responding slot. -/
theorem sourceEventReachesTheMatchingSlots : Obligations.SourceEventReachesTheMatchingSlots := by
  refine ⟨fun e s => rfl, fun e k ks s => ⟨fun h => ?skip, fun d n l hu hd => ⟨visitSlots_plain hu hd,
    visitSlots_replace hu hd, fun hl ha => ?ignore⟩⟩, fun s => rfl, fun b bs s => ?blocks,
    fun n i z l => ⟨rfl, rfl, rfl⟩, fun b e s hup hc he => ?event⟩
  case skip => exact visitSlots_skip e s [k] ks (by simpa using h)
  case ignore => exact ⟨_, satInc_toNat _, visitSlots_ignore hu hd hl ha⟩
  case blocks =>
    rw [takeBlockEvents]
    refine congrArg (takeBlockEvents bs) ?_
    unfold takeBlockEvent oldestEvent
    split
    · rfl
    · cases s.handed.events.find? (fun e => decide (e.source.block = b)) <;> rfl
  case event =>
    intro responds rest ends
    have taken : ends (visitSlots e (List.finRange 16) (s.withHanded rest)) := by
      refine exec_of_eventOf (.inl rfl) rfl hup ?_
      have oldest : oldestEvent b s.handed.events = some e := he
      simp only [eventOf, hc, oldest]
      rfl
    refine ⟨taken, fun hno => ?_, fun k d n l hu hd hlow => ?_⟩
    · have := taken
      rwa [visitSlots_none (s := s.withHanded rest) (fun j _ => hno j) hc] at this
    · have before : ∀ j ∈ allTriggerSlots.take k.val, ¬responds j := by
        intro j hj
        obtain ⟨i, hi, rfl⟩ := List.mem_iff_getElem.1 hj
        refine hlow _ ?_
        have : i < k.val := by
          simp only [List.length_take] at hi
          omega
        simpa [allTriggerSlots, Fin.lt_def] using this
      have reached : visitSlots e (List.finRange 16) (s.withHanded rest)
          = visitSlots e (k :: allTriggerSlots.drop (k.val + 1)) (s.withHanded rest) := by
        refine (congrArg (visitSlots e · (s.withHanded rest)) (allTriggerSlots_split k)).trans ?_
        exact visitSlots_skip e (s.withHanded rest) _ _ before
      rw [reached] at taken
      refine ⟨fun hl => ?_, fun hl ha => ?_, fun hl ha hhigh => ?_⟩
      · rwa [visitSlots_plain (s := s.withHanded rest) hu hd hl] at taken
      · rwa [visitSlots_replace (s := s.withHanded rest) hu hd hl ha] at taken
      · refine ⟨_, satInc_toNat _, ?_⟩
        rw [visitSlots_ignore (s := s.withHanded rest) hu hd hl ha] at taken
        have after : ∀ j ∈ allTriggerSlots.drop (k.val + 1), ¬∃ d n l,
            (countMiss k (s.withHanded rest)).triggers.slots[j].use = .defined d .armed n l
              ∧ d.source = e.source := by
          intro j hj
          obtain ⟨i, hi, rfl⟩ := List.mem_iff_getElem.1 hj
          rw [countMiss_use]
          refine hhigh _ ?_
          simp only [allTriggerSlots, List.getElem_drop, List.getElem_finRange, Fin.lt_def]
          simp
          omega
        rwa [visitSlots_none after hc] at taken

/-! ## Requests answered (R109 to R111) -/

theorem SlotUse.admitted_defined (d : TriggerDef) (st : ArmState) (left : Nat) (l : List Handle)
    (replaced : Option Handle) (x : Handle) : (SlotUse.defined d st left l).admitted replaced x
      = .defined d (if d.shots ≠ 0 ∧ left ≤ 1 then .spent else st)
        (if d.shots = 0 then left else left - 1)
        (l.filter (fun y => replaced ≠ some y) ++ [x]) := by
  have kept : l.filter (fun y => decide (some y ≠ replaced))
      = l.filter (fun y => decide (replaced ≠ some y)) :=
    List.filter_congr fun y _ => by rw [decide_eq_decide]; exact ne_comm
  unfold SlotUse.admitted
  dsimp only
  rw [kept]
  by_cases hs : d.shots = 0
  · simp [hs]
  · by_cases hl : left ≤ 1
    · have : left - 1 = 0 := by omega
      simp [hs, hl, this]
    · simp [hs, hl]

/-- Settles O36: the visit's rest, the requests, and what a slot makes of each answer. -/
theorem triggerRequestsAreAnsweredAndTheAnswersTaken :
    Obligations.TriggerRequestsAreAnsweredAndTheAnswersTaken := by
  refine ⟨fun e k s => rfl, fun e r s hup hc => ⟨fun hr => ?plain, fun x hr => ?replacement⟩,
    fun r d st left l s hu => ?answers⟩
  case plain =>
    refine exec_of_eventOf (.inl rfl) rfl hup ?_
    simp only [eventOf, hc, hr]
  case replacement =>
    refine exec_of_eventOf (.inl rfl) rfl hup ?_
    simp only [eventOf, hc, hr]
  case answers =>
    intro x missed
    refine ⟨fun y => ?_, _, satInc_toNat _, rfl, rfl, rfl⟩
    rw [← SlotUse.admitted_defined, ← hu]
    rfl

end Sys2Proof.Machine
end

section
/-! The Stamp Queue and the report stream: STREAM, a good ACK, an offer, the hold time and the retransmit
timer (R122 to R140). -/

namespace Sys2Proof.Machine

variable {c : QueuedCommand} {s t u : State}

/-! ## STREAM (R127 to R129) -/

theorem streamInRange_of_wellFormed {f : StreamFields} (h : inRange (.stream f ·) = true) :
    f.enable.toNat ≤ 1 ∧ streamInRange f = true := by
  simpa [inRange, wellFormed, streamInRange, and_assoc] using h

theorem sameConfig_iff {f : StreamFields} {st : ReportStream} : sameConfig f st = true
    ↔ f.batch.toNat = st.batch ∧ f.hold.toNat = st.hold ∧ f.interval.toNat = st.interval
      ∧ f.retryLimit.toNat = st.retryLimit := by
  simp [sameConfig, and_assoc]

/-- The state that STREAM's enable asks for. -/
def streamWanted (on : Bool) : StreamState := if on then .on else .off

/-- The stream after its enable (R127 to R129). -/
def enabledStream (on : Bool) (st : ReportStream) : ReportStream :=
  match st.state, streamWanted on with
  | .off, .on => { st with state := .on, window := [], retryCount := 0, timer := none }
  | .on, .off => { st with state := .off, window := [], retryCount := 0, timer := none }
  | .stalled, .on => { st with state := .on, retryCount := 0 }
  | _, _ => { st with state := streamWanted on }

/-- The entries after the enable: from ON to OFF every one is put back to WAITING (R128). -/
def enabledEntries (on : Bool) (s : State) : List StampEntry :=
  if s.stream.state = .on ∧ streamWanted on = .off
    then s.stamps.entries.map StampEntry.revert else s.stamps.entries

/-- What the enable leaves, and when it tells the transmitter (R132). -/
theorem enableStream_eq (on : Bool) (s : State) : enableStream on s
    = let u := (s.withStream (enabledStream on s.stream)).withStamps
        { s.stamps with entries := enabledEntries on s }
      u.withTx { s.tx with told := s.tx.told
        || (decide (s.stream.state ≠ .on ∧ streamWanted on = .on) && eligible u) } := by
  cases hs : s.stream.state <;> cases on <;>
    simp only [enableStream, hs, enabledStream, streamWanted, enabledEntries, tellIfEligible_eq] <;>
    simp
  case off.false | on.true =>
    rw [← hs]
    rfl
  all_goals rfl

theorem streamFields_eq (s : State) : streamFields s
    = [s.stream.state.code, BitVec.ofNat 8 s.stream.batch, BitVec.ofNat 8 s.stream.hold]
      ++ be 2 s.stream.interval
      ++ [BitVec.ofNat 8 s.stream.retryLimit, BitVec.ofNat 8 s.stamps.entries.length] := by
  simp [streamFields]

theorem enabledStream_config (on : Bool) (st : ReportStream) :
    (enabledStream on st).state = streamWanted on ∧ (enabledStream on st).batch = st.batch
    ∧ (enabledStream on st).hold = st.hold ∧ (enabledStream on st).interval = st.interval
    ∧ (enabledStream on st).retryLimit = st.retryLimit := by
  unfold enabledStream streamWanted
  cases st.state <;> cases on <;> simp

theorem enabledEntries_length (on : Bool) (s : State) :
    (enabledEntries on s).length = s.stamps.entries.length := by
  unfold enabledEntries
  split <;> simp

/-- The reply shows the state wanted, the configuration of the command and the queue count (R127). -/
theorem streamFields_switchStream (on : Bool) (f : StreamFields) (s : State) :
    streamFields (switchStream on f s) = [(streamWanted on).code, f.batch, f.hold]
      ++ be 2 f.interval.toNat ++ [f.retryLimit, BitVec.ofNat 8 s.stamps.entries.length] := by
  obtain ⟨state, batch, hold, interval, limit⟩ :=
    enabledStream_config on (s.stream.configured f)
  have count := enabledEntries_length on (s.withStream (s.stream.configured f))
  rw [switchStream, enableStream_eq, streamFields_eq]
  simp [state, batch, hold, interval, limit, count]
  simp [ReportStream.configured]

/-- The rule, with fields in range. -/
theorem streamRule_inRange {f : StreamFields} {on : Bool} (hon : readYesNo f.enable = some on)
    (hf : streamInRange f = true) (c : QueuedCommand) (s : State) : streamRule f c s
      = if s.stream.state ≠ .off ∧ sameConfig f s.stream = false then answer c .state [] s
        else answer c .ok (streamFields (switchStream on f s)) (switchStream on f s) := by
  simp [streamRule, hon, hf]

/-- Settles O38: the refusal, or the configuration set and the enable taken. -/
theorem streamSetsConfigurationAndState : Obligations.StreamSetsConfigurationAndState := by
  intro f c s hw h same
  obtain ⟨hon, hf⟩ := streamInRange_of_wellFormed hw
  have rule := streamRule_inRange (readYesNo_of hon) hf c s
  have differs : sameConfig f s.stream = false ↔ ¬same := by
    rw [← Bool.not_eq_true, sameConfig_iff]
  refine ⟨fun hs hd => ?state, fun hd => ?sets⟩
  case state =>
    exact h.replies (fun _ => rfl) (fun _ => rule.trans (if_pos ⟨hs, differs.2 hd⟩)) rfl
  case sets =>
    intro st wanted stream entries u tells
    have asked : streamWanted (f.enable == 1) = wanted := by
      simp [streamWanted, wanted]
    refine h.replies (fun _ => rfl) (fun _ => rule.trans ?_) rfl
    rw [if_neg fun hr => differs.1 hr.2 (hd hr.1), streamFields_switchStream, asked]
    have streamIs : enabledStream (f.enable == 1) (s.stream.configured f) = stream := by
      rw [enabledStream, asked]
      cases hs : s.stream.state <;> cases hx : wanted <;>
        simp [stream, st, hs, hx, ReportStream.configured]
    have entriesAre : enabledEntries (f.enable == 1) (s.withStream (s.stream.configured f))
        = entries := by
      rw [enabledEntries, asked]
      rfl
    rw [switchStream, enableStream_eq, withStream_stream, streamIs, entriesAre, asked]
    rfl

/-! ## A good ACK (R140) -/

theorem carriedBy_eq (reports : List Report) (e : StampEntry) : e.carriedBy reports
    = reports.any (fun x => decide (e.state = .inFlight x.sequence)) := by
  rw [Bool.eq_iff_iff, carriedBy_iff]
  simp

/-- A good ACK, taken. -/
theorem takeAck_good {q : Byte} {before after : List Report} {r : Report}
    (hon : s.stream.state = .on) (hw : s.stream.window = before ++ r :: after)
    (hr : r.sequence = q) (hb : ∀ x ∈ before, x.sequence ≠ q) : takeAck q s
      = tellIfEligible ((s.withStamps { s.stamps with
          entries := s.stamps.entries.filter (fun e => !e.carriedBy (before ++ [r])) }).withStream
        { s.stream with
          window := after, retryCount := 0
          timer := if after.isEmpty then none else some (inMillis s.stream.interval s) }) := by
  simp only [takeAck, hon, hw, splitWindow_append hr before after hb]

/-- Settles O40: the window splits at the report named. -/
theorem goodAckRemovesTheReportsUpToIt : Obligations.GoodAckRemovesTheReportsUpToIt := by
  intro q acks before after r s hup hacks hon hw hr hb u
  have good := takeAck_good (s := s.withHanded { s.handed with acks := acks }) hon hw hr hb
  rw [exec_ack_number hup hacks, good, tellIfEligible_eq]
  have timer : (if after.isEmpty then none else some (inMillis s.stream.interval s))
      = if after = [] then none else some (s.now + s.stream.interval * 1000) := by
    cases after <;> rfl
  have entries : s.stamps.entries.filter (fun e => !e.carriedBy (before ++ [r]))
      = s.stamps.entries.filter (fun e =>
          !(before ++ [r]).any (fun x => decide (e.state = .inFlight x.sequence))) := by
    simp only [carriedBy_eq]
  have same : ((s.withHanded { s.handed with acks := acks }).withStamps { s.stamps with
        entries := s.stamps.entries.filter (fun e => !e.carriedBy (before ++ [r])) }).withStream
      { s.stream with
        window := after, retryCount := 0
        timer := if after.isEmpty then none else some (inMillis s.stream.interval s) } = u := by
    rw [timer, entries]
    rfl
  exact congrArg (fun x : State => finish (x.withTx { x.tx with told := x.tx.told || eligible x })) same

/-! ## An offer (R122 to R125) -/

/-- The Stamp Queue's step on an offer. -/
theorem exec_stampOffer {b : StampBlock} {o : StampOffer} (hup : s.pins.resetActive = false)
    (ho : oldestOffer b s.handed.offers = some o) :
    exec (.stampOffer b) s = .next (settle
      (let v := (s.withHanded { s.handed with offers := s.handed.offers.erase o }).withStamps
        (takeOffer o s.now s.stamps)
       if s.stamps.entries.length < 128 then tellIfEligible v else v)) :=
  exec_of_eventOf (.inl rfl) rfl hup (by rw [eventOf, ho]; rfl)

/-- Settles O42: room for the offer, or none. -/
theorem offerIsAdmittedOrDroppedAndCounted : Obligations.OfferIsAdmittedOrDroppedAndCounted := by
  intro b ⟨what, time⟩ s hup ho lost withLost taken
  have oldest : oldestOffer b s.handed.offers = some ⟨what, time⟩ := by
    rw [← ho, oldestOffer]
    congr 1
    funext ⟨x, _⟩
    cases x <;> simp [Measurement.block, eq_comm]
  have pending : pendingLoss what s.stamps = lost := by cases what <;> rfl
  have sets : ∀ x q, setPendingLoss what x q = withLost x q := fun x q => by cases what <;> rfl
  have step := exec_stampOffer hup oldest
  refine ⟨fun hroom => ?admitted, fun hfull => ⟨satInc lost, satInc s.stamps.dropped,
    satInc_toNat _, satInc_toNat _, ?dropped⟩⟩
  case admitted =>
    intro u
    have taking : takeOffer ⟨what, time⟩ s.now s.stamps = withLost 0 { s.stamps with
        entries := s.stamps.entries ++
          [⟨.waiting, ⟨what, time, if lost = 0 then none else some lost⟩, s.now⟩] } := by
      rw [takeOffer, if_pos (show s.stamps.entries.length < Config.stampCapacity from hroom), pending,
        sets]
    rw [step, taking, if_pos hroom, tellIfEligible_eq]
    rfl
  case dropped =>
    have dropping : takeOffer ⟨what, time⟩ s.now s.stamps
        = withLost (satInc lost) { s.stamps with dropped := satInc s.stamps.dropped } := by
      rw [takeOffer,
        if_neg (Nat.not_lt.2 (show Config.stampCapacity ≤ s.stamps.entries.length from hfull)),
        pending, sets]
    rw [step, dropping, if_neg (Nat.not_lt.2 hfull)]

/-! ## The hold time (R132 to R134) -/

/-- The usual ending, with no removal reported and no notice offered: an idle transmitter that has been
told something takes a boundary. -/
theorem settle_usual (hoff : s.offered = []) (hrem : s.removals = []) (hend : s.endings = []) :
    settle s = dropTelling (answerTelling s) := by
  have endings : s.withEndings [] = s := by rw [← hend]; rfl
  have offered : s.withOffered [] = s := by rw [← hoff]; rfl
  have rest : takeRemovals (answerTelling s) = answerTelling s := takeRemovals_none (by simp [hrem])
  simp [settle, hend, endings, usualEnding, takeEndClaim, takeRemovals_none hrem, takeOffers, hoff,
    offered, admitAll, rest]

/-- That ending with an idle transmitter told: a boundary. -/
theorem settle_boundary (hoff : s.offered = []) (hrem : s.removals = []) (hend : s.endings = [])
    (htold : s.tx.told = true) (hidle : s.tx.state = .idle) :
    settle s = dropTelling (boundary (s.withTx { s.tx with told := false })) := by
  rw [settle_usual hoff hrem hend, answerTelling, if_pos ⟨htold, hidle⟩]

/-- Past its hold the oldest WAITING entry makes a report eligible. -/
theorem eligible_of_hold {e : StampEntry} {rest : List StampEntry} (hon : s.stream.state = .on)
    (hwin : s.stream.window.length < 4) (hw : waitingEntries s = e :: rest)
    (hold : e.since + s.stream.hold * 1000 ≤ s.now) : eligible s = true := by
  simp [eligible, hon, hwin, hw, hold, Config.windowCapacity, Config.microsPerMilli]

/-- With nothing before it the boundary begins the next report (R133, R189). -/
theorem settle_report (hoff : s.offered = []) (hrem : s.removals = []) (hend : s.endings = [])
    (htold : s.tx.told = true) (hidle : s.tx.state = .idle) (hq : s.cmd.replyQueue = [])
    (hp : s.cmd.resetPending = none) (hn : s.notices.queue = [])
    (hm : ∀ r ∈ s.stream.window, r.marked = false) (he : eligible s = true) : settle s
      = (formReport s).withTx
        ⟨.sending (.firstSending s.stream.nextSequence) (reportFrame (nextReport s)), false⟩ := by
  have unmarked : s.stream.window.find? (fun r => r.marked) = none :=
    List.find?_eq_none.2 fun r hr => by simp [hm r hr]
  rw [settle_boundary hoff hrem hend htold hidle, 
    boundary_report (s := s.withTx { s.tx with told := false }) hq hp hn unmarked he]
  rfl

/-- Settles O43: the hold's moment is reached, and the usual ending's boundary forms the report. -/
theorem holdReachedFormsAndSendsAReport : Obligations.HoldReachedFormsAndSendsAReport := by
  refine ⟨fun q es => by simp [markInFlight], fun q n => ?_, fun q n e es => ?_, fun e rest s hup hon hwin hw => ?_⟩
  · cases n <;> rfl
  · simp [markInFlight, StampEntry.isWaiting]
  have waiting : waitingEntries s = e :: rest := hw
  have event : eventOf .holdTimeReached s
      = some (tellIfEligible (reach (e.since + s.stream.hold * 1000) s)) := by
    simp [eventOf, waiting, hon, hwin, Config.windowCapacity, Config.microsPerMilli]
  have step := exec_of_eventOf (.inl rfl) rfl hup event
  rw [tellIfEligible_eq] at step
  refine ⟨step, fun hoff hrem hend hidle hq hp hn hm => ?_⟩
  intro report
  set u := reach (e.since + s.stream.hold * 1000) s with hu
  have hel : eligible u = true := eligible_of_hold hon hwin waiting (Nat.le_max_right ..)
  refine ⟨_, step, ?_⟩
  rw [hel, Bool.or_true, settle_report (s := u.withTx { u.tx with told := true }) hoff hrem hend rfl
    hidle hq hp hn hm hel]
  have next : nextReport (u.withTx { u.tx with told := true }) = report :=
    congrArg (fun l => Report.mk _ ((l.take s.stream.batch).map StampEntry.content) false) waiting
  refine ⟨?stream, ?entries, ?frame, ?_, ?_, ?_, ?_⟩
  case stream =>
    rw [← next]
    rfl
  case frame =>
    rw [next]
    rfl
  case entries => rfl
  all_goals simp [formReport, hu]

/-- Settles O44: the expiry's moment is reached, and the retry count decides. -/
theorem expiryMarksTheWindowOrStalls : Obligations.ExpiryMarksTheWindowOrStalls := by
  intro m s hup ht
  have event : eventOf .retransmitExpiry s = some (if s.stream.retryCount < s.stream.retryLimit
      then markWindow (reach m s)
      else offerNotice .streamStalled s.time.value none (revertStream .stalled (reach m s))) := by
    rw [eventOf, ht]
    rfl
  have next := exec_of_eventOf (.inl rfl) rfl hup event
  refine ⟨fun hr => ?marks, fun hr => ?stalls⟩
  case marks =>
    rw [next, if_pos hr, ← not_isEmpty_eq]
    rfl
  case stalls =>
    rw [next, if_neg (Nat.not_lt.2 hr)]
    rfl

end Sys2Proof.Machine
end

section
/-! The Notice Queue's claims (R146 to R148), and the boundary's asks with the end of a step (R132, R133,
R189 to R193). -/

namespace Sys2Proof.Machine

variable {s t u : State}

/-! ## A notice offered, and taken -/

theorem admitNotice_room (o : NoticeOffer) (h : s.notices.queue.length < 32) : admitNotice o s
    = (s.withNotices
      { queue := s.notices.queue
          ++ [⟨o.body, o.time, o.label, if s.notices.lost = 0 then none else some s.notices.lost⟩]
        lost := 0, dropped := s.notices.dropped }).withTx { s.tx with told := true } :=
  if_pos h

theorem admitNotice_full (o : NoticeOffer) (h : 32 ≤ s.notices.queue.length) : admitNotice o s
    = s.withNotices { queue := s.notices.queue, lost := satInc s.notices.lost
                      dropped := satInc s.notices.dropped } :=
  if_neg (Nat.not_lt.2 h)

theorem takeOffers_none (h : s.offered = []) : takeOffers s = s := by
  rw [takeOffers, h]
  exact (congrArg s.withOffered h.symm).trans rfl

theorem takeOffers_cons {o : NoticeOffer} {rest : List NoticeOffer} (h : s.offered = o :: rest) :
    takeOffers s = takeOffers (admitNotice o (s.withOffered rest)) := by
  have left : (admitNotice o (s.withOffered rest)).offered = rest := by simp
  have all : (admitNotice o (s.withOffered rest)).withOffered []
      = admitNotice o (s.withOffered []) := by
    by_cases hroom : s.notices.queue.length < 32
    · rw [admitNotice_room (s := s.withOffered rest) o hroom,
        admitNotice_room (s := s.withOffered []) o hroom]
      rfl
    · rw [admitNotice_full (s := s.withOffered rest) o (Nat.not_lt.1 hroom),
        admitNotice_full (s := s.withOffered []) o (Nat.not_lt.1 hroom)]
      rfl
  rw [takeOffers, takeOffers, h, left, all]
  rfl

/-! ## The next offer of one block (R13, R146) -/

variable {b : NoticeBlock} {o : NoticeOffer} {before after : List NoticeOffer}

theorem nextOffer_none {l : List NoticeOffer} (h : ∀ x ∈ l, x.body.block ≠ b) :
    nextOffer b l = none := by
  induction l with
  | nil => rfl
  | cons x l ih =>
    rw [nextOffer, if_neg (h x List.mem_cons_self), ih fun y hy => h y (List.mem_cons_of_mem _ hy)]
    rfl

/-- The block's oldest offer, unless one before it is of the same tick. -/
theorem nextOffer_append (ho : o.body.block = b) (h : ∀ x ∈ before, x.body.block ≠ b) :
    nextOffer b (before ++ o :: after)
      = if before.any (fun x => x.sameTick o) then none else some o := by
  induction before with
  | nil => simp [nextOffer, ho]
  | cons x l ih =>
    rw [List.cons_append, nextOffer, if_neg (h x List.mem_cons_self),
      ih fun y hy => h y (List.mem_cons_of_mem _ hy)]
    cases hx : x.sameTick o <;> cases hl : l.any (fun x => x.sameTick o) <;> simp [hx, hl]

theorem erase_offer (ho : o.body.block = b) (h : ∀ x ∈ before, x.body.block ≠ b) :
    (before ++ o :: after).erase o = before ++ after := by
  rw [List.erase_append_right _ fun hm => h o hm ho, List.erase_cons_head]

/-! ## Notices of one tick -/

theorem ofTick_iff (x : NoticeBody) : x.ofTick = true ↔
    (∃ h st n, x = .fired h st n) ∨ (∃ n, x = .truncated n) ∨ x = .timeEnd
      ∨ ∃ h, x = .ended h .done ∨ x = .ended h .range := by
  cases x with
  | ended h r => cases r <;> simp [NoticeBody.ofTick]
  | ready | fired | truncated | triggerMiss | timeEnd | streamStalled | linkError =>
    simp [NoticeBody.ofTick]

/-- Settles O45, claim by claim. -/
theorem noticeIsAdmittedOrDroppedAndCounted : Obligations.NoticeIsAdmittedOrDroppedAndCounted := by
  refine ⟨fun body t l s => ⟨rfl, admitNotice_room _, fun h => ⟨_, _, satInc_toNat _,
    satInc_toNat _, admitNotice_full _ h⟩⟩, fun s => ⟨takeOffers_none, fun o rest => takeOffers_cons⟩,
    fun b s => ⟨fun h => ?none, fun before o after hl ho hb => ⟨fun h => ?taken, fun h => ?waits⟩⟩,
    fun a c => ?sameTick, fun x => ?block⟩
  case none => simp [takeEndClaim, takeNextOffer, nextOffer_none h]
  case taken =>
    have next := nextOffer_append (after := after) ho hb
    rw [if_neg (by simpa using h)] at next
    simp only [takeEndClaim, takeNextOffer, hl, next, erase_offer ho hb]
  case waits =>
    have next := nextOffer_append (after := after) ho hb
    rw [if_pos (by simpa using h)] at next
    simp only [takeEndClaim, takeNextOffer, hl, next]
  case sameTick =>
    simp only [NoticeOffer.sameTick, Bool.and_eq_true, decide_eq_true_eq, ofTick_iff,
      List.forall_mem_cons, List.not_mem_nil, false_imp_iff, implies_true, and_true]
    exact and_comm
  case block =>
    cases x with
    | linkError k => cases k <;> rfl
    | ready | fired | ended | truncated | triggerMiss | timeEnd | streamStalled => rfl

/-! ## The boundary (R132, R133, R189, R191) -/

theorem marked_find {r : Report} {before after : List Report} (hr : r.marked = true)
    (hb : ∀ x ∈ before, x.marked = false) :
    (before ++ r :: after).find? (fun x => x.marked) = some r := by
  rw [List.find?_append, List.find?_eq_none.2 fun x hx => by simp [hb x hx], List.find?_cons_of_pos hr]
  rfl

theorem marked_find_none {w : List Report} (h : ∀ x ∈ w, x.marked = false) :
    w.find? (fun x => x.marked) = none :=
  List.find?_eq_none.2 fun x hx => by simp [h x hx]

theorem eligible_iff (s : State) : eligible s = true ↔ s.stream.state = .on
    ∧ s.stream.window.length < 4 ∧ ∃ e rest, waitingEntries s = e :: rest
      ∧ (s.stream.batch ≤ rest.length + 1 ∨ e.since + s.stream.hold * 1000 ≤ s.now) := by
  unfold eligible
  cases h : waitingEntries s with
  | nil => simp
  | cons e rest =>
    simp only [Bool.and_eq_true, Bool.or_eq_true, decide_eq_true_eq]
    simp [and_assoc, Config.windowCapacity, Config.microsPerMilli]

/-- The claims of an ending, and then the removal reports that these leave. -/
def ended (s : State) : State :=
  takeRemovals (takeEndClaims (s.endings.headD usualEnding) (s.withEndings s.endings.tail))

theorem settle_ended (s : State) : settle s = if (ended s).tx.state = .idle then ended s
    else (ended s).withTx { (ended s).tx with told := false } := rfl

theorem ended_usual (h : s.endings = []) : ended s = takeRemovals (takeEndClaims usualEnding s) := by
  have endings : s.withEndings [] = s := by rw [← h]; rfl
  simp [ended, h, endings]

theorem ended_named {ending : List EndClaim} {rest : List (List EndClaim)}
    (h : s.endings = ending :: rest) :
    ended s = takeRemovals (takeEndClaims ending (s.withEndings rest)) := by
  simp [ended, h]

/-- Settles O50: the asks in their order, eligibility, and the claims of an ending. -/
theorem boundaryAsksItsSourcesInOrder : Obligations.BoundaryAsksItsSourcesInOrder := by
  intro s send idle
  refine ⟨fun i rest r hq hr => boundary_reply hq hr, boundary_drain,
    fun hq hp => ⟨fun n rest hn => boundary_notice hq hp hn, fun hn before r after hw hr hb => ?resend,
      fun hn hm he => boundary_rest hq hp hn (marked_find_none hm) he,
      fun hn hm he => boundary_report hq hp hn (marked_find_none hm) he⟩,
    eligible_iff s, fun htold hidle => if_pos ⟨htold, hidle⟩, fun h => ?untold, rfl, fun _ _ => rfl,
    ⟨ended s, ended_usual, fun _ _ => ended_named, settle_ended s⟩, settle_quiet⟩
  case resend =>
    rw [boundary_resend hq hp hn (hw ▸ marked_find hr hb), hw, clearFirstMark_append hr _ _ hb]
    rfl
  case untold =>
    refine if_neg fun ⟨htold, hidle⟩ => ?_
    rcases h with h | h
    · simp [h] at htold
    · exact h hidle

/-! ## The end of a transmission (R135, R190, R193) -/

/-- The step at the end of a frame. -/
theorem exec_endOfTransmission {src : FrameSource} {f : Frame} (hup : s.pins.resetActive = false)
    (h : s.tx.state = .sending src f) (hu : (tellSent src s).withTx ⟨.idle, false⟩ = u) :
    exec .endOfTransmission s = .next (settle (boundary u)) := by
  refine exec_of_eventOf (.inl rfl) rfl hup ?_
  have told : (tellSent src (idleTx s)).withTx { (tellSent src (idleTx s)).tx with told := false }
      = (tellSent src s).withTx ⟨.idle, false⟩ := by cases src <;> rfl
  simp only [eventOf, h, takeBoundary, told, hu]

/-- R135's table: the timer stands with an empty window and with a report still marked. -/
theorem timerAfterSending_untouched {resend : Bool}
    (h : s.stream.window = [] ∨ ∃ r ∈ s.stream.window, r.marked = true) :
    timerAfterSending resend s = s.stream.timer :=
  if_pos (by simpa using h)

theorem timerAfterSending_started {resend : Bool}
    (h : ¬(s.stream.window = [] ∨ ∃ r ∈ s.stream.window, r.marked = true)) :
    timerAfterSending resend s = if resend = true ∨ s.stream.timer = none
      then some (s.now + s.stream.interval * 1000) else s.stream.timer := by
  rw [timerAfterSending, if_neg (by simpa using h)]
  simp [inMillis, Config.microsPerMilli]

/-- Settles O51, by the source of the frame that ends. -/
theorem endOfTransmissionTellsItsSource : Obligations.EndOfTransmissionTellsItsSource := by
  intro f s hup bare expiry untouched timed
  have sent : ∀ {src u}, s.tx.state = .sending src f → (tellSent src s).withTx ⟨.idle, false⟩ = u →
      exec .endOfTransmission s = .next (settle (boundary u)) := exec_endOfTransmission hup
  have stands : ∀ {r}, timerAfterSending r s = s.stream.timer →
      (s.withStream { s.stream with timer := timerAfterSending r s }).withTx ⟨.idle, false⟩ = bare :=
    fun h => by rw [h]; rfl
  have starts : ∀ {r}, timerAfterSending r s = expiry →
      (s.withStream { s.stream with timer := timerAfterSending r s }).withTx ⟨.idle, false⟩
        = timed expiry :=
    fun h => by rw [h]; rfl
  refine ⟨fun i h => sent h rfl, fun h => sent h rfl,
    fun q h => ⟨fun hu => sent h (stands (timerAfterSending_untouched hu)), fun hu => sent h (starts ?_)⟩,
    fun q h => ⟨fun hu => sent h (stands ?_), fun hu ht => sent h (starts ?_)⟩, fun h => ?postReset⟩
  case postReset => exact exec_of_eventOf (.inl rfl) rfl hup (by rw [eventOf, h]; rfl)
  · exact (timerAfterSending_started hu).trans (by simp [expiry])
  · by_cases untouched : untouched
    · exact timerAfterSending_untouched untouched
    · have running : s.stream.timer.isSome := hu.resolve_left untouched
      rw [timerAfterSending_started untouched]
      simp [Option.isSome_iff_ne_none.1 running]
  · exact (timerAfterSending_started hu).trans (by simp [expiry, ht])

end Sys2Proof.Machine
end

section
/-! The receive machine and acceptance: a frame's last character sorted by R160's rows, the characters by
their place, and the link errors (R160 to R163, R180 to R187). -/

namespace Sys2Proof.Machine

variable {s t u : State} {ch : RxChar}

/-! ## Tags and slots -/

theorem tagInUse_iff {tag : Byte} : tagInUse tag s = true ↔ tag ∈ usedTags s.cmd := by
  simp [tagInUse, usedTags]

/-- A refusal takes the lowest FREE slot, or the frame is lost (R161). -/
theorem refuseFrame_eq (st : Status) (tag kind : Byte) (s : State) :
    refuseFrame st tag kind s = match freeReplySlot s with
      | none => s.withCmd { s.cmd with refusalsLost := satInc s.cmd.refusalsLost }
      | some i => (s.withCmd { s.cmd with
          slots := s.cmd.slots.set i (.filled ⟨kind ||| 0x80, tag, [st.code]⟩)
          replyQueue := s.cmd.replyQueue ++ [i]
          refused := satInc s.cmd.refused }).withTx { s.tx with told := true } := by
  unfold refuseFrame
  cases freeReplySlot s <;> rfl

/-- An acceptance reserves the lowest FREE slot, or the frame is lost (R162). -/
theorem acceptFrame_eq (tag kind : Byte) (p : Payload) (s : State) :
    acceptFrame tag kind p s = match freeReplySlot s with
      | none => s.withCmd { s.cmd with refusalsLost := satInc s.cmd.refusalsLost }
      | some i => s.withCmd { s.cmd with
          slots := s.cmd.slots.set i .reserved
          queue := s.cmd.queue ++ [⟨tag, kind, p, i⟩]
          accepted := s.cmd.accepted + 1 } := by
  unfold acceptFrame
  cases freeReplySlot s <;> rfl

/-! ## Characters (R180) -/

theorem begins_iff {r : Receiver} : r.begins ch = true ↔ r.waitHigh = false ∨ ch.rose = true := by
  simp [Receiver.begins]

theorem hears_iff {r : Receiver} : r.hears ch = true
    ↔ (r.waitHigh = false ∨ ch.rose = true) ∧ ch.startMid = .low := by
  simp [Receiver.hears, begins_iff]

theorem takeChar_noise (hb : s.rx.begins ch = true) (h : s.rx.hears ch = false) :
    takeChar ch s = s.withRx { s.rx with waitHigh := false } := by
  simp [takeChar, hb, h, stopBit]

theorem takeChar_silent (hb : s.rx.begins ch = false) : takeChar ch s = s := by
  simp [takeChar, Receiver.hears, hb]

theorem takeChar_heard (h : s.rx.hears ch = true) :
    takeChar ch s = takeByte ch.data (stopBit ch.stop s) := if_pos h

theorem exec_byteTaken (hup : s.pins.resetActive = false) :
    exec (.byteTaken ch) s = .next (settle (takeChar ch s)) :=
  exec_of_eventOf (.inl rfl) rfl hup rfl

theorem exec_frameReceived (hup : s.pins.resetActive = false) (hc : s.rx.state = .crcLo)
    (h : s.rx.hears ch = true) : exec (.frameReceived ch) s
      = .next (settle (takeByte ch.data (stopBit ch.stop s))) :=
  exec_of_eventOf (.inl rfl) rfl hup (by rw [eventOf, if_pos ⟨hc, h⟩, takeChar_heard h])

/-- The CRC_LO byte. -/
theorem takeByte_crcLo (b : Byte) (hc : s.rx.state = .crcLo) : takeByte b s
    = if s.rx.checkHigh ++ b ≠ s.rx.check then linkError .check s
      else sortFrame s.rx.tag s.rx.kind s.rx.payload (s.withRx s.rx.hunting) := by
  simp only [takeByte, hc]
  exact ite_not .. |>.symm

/-- Settles O48, row by row. -/
theorem frameIsSortedByTheFirstRowItMeets : Obligations.FrameIsSortedByTheFirstRowItMeets := by
  intro ch s hup hc hbegins hmid hunt up1 u tag kind free refused
  have heard : s.rx.hears ch = true := hears_iff.2 ⟨hbegins, hmid⟩
  have refuses : ∀ st, refuseFrame st tag kind u = refused st :=
    fun st => refuseFrame_eq st tag kind u
  have inUse : tagInUse tag u = true ↔ tag ∈ usedTags s.cmd := tagInUse_iff
  rw [exec_frameReceived hup hc heard, takeByte_crcLo _ (show (stopBit ch.stop s).rx.state = _ from hc)]
  have sorted : sortFrame tag kind s.rx.payload u = if tag = 0 then
        offerNotice (.linkError .tag0) s.time.value none
          (u.withCmd { s.cmd with tagZero := up1 s.cmd.tagZero })
      else if kind = kindAck then
        u.withHanded { s.handed with acks := s.handed.acks ++ [s.rx.payload] }
      else if s.cmd.resetPending.isSome then refused .aborted
      else if kind ∉ commandKinds then refused .unknownKind
      else if 4 ≤ s.cmd.queue.length then refused .queueFull
      else if tag ∈ usedTags s.cmd then refused .dupTag
      else acceptFrame tag kind s.rx.payload u := by
    unfold sortFrame
    simp only [refuses, inUse]
    rfl
  rw [acceptFrame_eq] at sorted
  exact congrArg (fun x => Host.Outcome.next (settle (if s.rx.checkHigh ++ ch.data ≠ s.rx.check
    then linkError .check (stopBit ch.stop s) else x))) sorted

/-! ## The characters by their place (R182 to R184) -/

theorem takeByte_long {b : Byte} (hl : s.rx.state = .len) (hb : 120 < b.toNat) :
    takeByte b s = linkError .length s := by
  simp only [takeByte, hl]
  exact if_pos hb

theorem takeByte_len {b : Byte} (hl : s.rx.state = .len) (hb : b.toNat ≤ 120) :
    takeByte b s = s.withRx (({ s.rx with
      state := .tag, length := b.toNat, check := crcByte s.rx.check b }).heard s.now) := by
  simp only [takeByte, hl]
  exact if_neg (Nat.not_lt.2 hb)

theorem exec_lengthError (hup : s.pins.resetActive = false) (hl : s.rx.state = .len)
    (h : s.rx.hears ch = true) (hd : 120 < ch.data.toNat) : exec (.lengthError ch) s
      = .next (settle (linkError .length (stopBit ch.stop s))) := by
  have event : eventOf (.lengthError ch) s = some (takeChar ch s) := if_pos ⟨hl, h, hd⟩
  refine exec_of_eventOf (.inl rfl) rfl hup (event.trans (congrArg some ?_))
  rw [takeChar_heard h, takeByte_long (s := stopBit ch.stop s) hl hd]

/-- Settles O49: whether a byte is heard, and then the state of the machine. -/
theorem bytesAreTakenByTheirPlaceAndErrorsEndFrames :
    Obligations.BytesAreTakenByTheirPlaceAndErrorsEndFrames := by
  intro ch s hup up1 begins byte waits hunt goTo
  have heard : byte → s.rx.hears ch = true := hears_iff.2
  have takes : ∀ {u}, byte → takeByte ch.data (stopBit ch.stop s) = u →
      exec (.byteTaken ch) s = .next (settle u) := fun h hu => by
    rw [exec_byteTaken hup, takeChar_heard (heard h), hu]
  have place : ∀ {x}, s.rx.state = x → (stopBit ch.stop s).rx.state = x := fun h => h
  refine ⟨fun h => ?silent, fun h hm => ?noise, fun h => ?noByte,
    fun h hx hd => takes h (takeByte_len (place hx) hd),
    fun h hx => takes h (by simp only [takeByte, place hx]; rfl),
    fun h hx => takes h (by simp only [takeByte, place hx]; rfl), fun h hx => takes h ?body,
    fun h hx => takes h (by simp only [takeByte, place hx]; rfl), fun h hx => ?crcLo,
    fun h hx hd => takes h ?ignored, fun h hx hd => takes h ?sync, fun h hx hd => ?long,
    fun m hm hx => ?gap⟩
  case silent =>
    rw [exec_byteTaken hup, takeChar_silent (by rw [← Bool.not_eq_true, begins_iff]; exact h)]
  case noise =>
    have noise : s.rx.hears ch = false := by
      rw [← Bool.not_eq_true, hears_iff, hm]
      simp
    rw [exec_byteTaken hup, takeChar_noise (begins_iff.2 h) noise]
  case noByte =>
    have unheard : s.rx.hears ch ≠ true := fun hh => h (hears_iff.1 hh)
    exact ⟨exec_of_eventOf_none (.inl rfl) rfl fun _ => if_neg fun hc => unheard hc.2,
      exec_of_eventOf_none (.inl rfl) rfl fun _ => if_neg fun hl => unheard hl.2.1⟩
  case body =>
    simp only [takeByte, place hx, List.length_append, List.length_singleton]
    rfl
  case crcLo => rw [takes h rfl, exec_frameReceived hup hx (heard h)]
  case ignored =>
    simp only [takeByte, place hx]
    exact if_neg hd
  case sync =>
    simp only [takeByte, place hx]
    exact if_pos hd
  case long =>
    have error := exec_lengthError hup hx (heard h) hd
    refine ⟨?_, error⟩
    rw [error]
    exact takes h (takeByte_long (place hx) hd)
  case gap =>
    refine exec_of_eventOf (.inl rfl) rfl hup ?_
    simp only [eventOf, hm, if_neg hx]
    rfl

end Sys2Proof.Machine
end

section
/-! The command block's own commands: RESET, and AWAIT with the expiry of its timeout (R166, R169, R172,
R173). -/

namespace Sys2Proof.Machine

variable {c : QueuedCommand} {s t u : State}

/-! ## RESET (R172, R173) -/

/-- A slot that no filling names is untouched. -/
theorem fillSlots_other {l : List (Fin 16 × Reply)} {i : Fin 16} (h : i ∉ l.map Prod.fst) :
    (fillSlots l s).cmd.slots[i] = s.cmd.slots[i] := by
  induction l generalizing s with
  | nil => rfl
  | cons p l ih =>
    rw [List.map_cons, List.mem_cons, not_or] at h
    rw [fillSlots, ih h.2, fillSlot_slots, setSlot, if_neg h.1]

/-- Distinct slots hold the replies they are filled with. -/
theorem fillSlots_own {l : List (Fin 16 × Reply)} (hn : (l.map Prod.fst).Nodup) {i : Fin 16} {r : Reply}
    (h : (i, r) ∈ l) : (fillSlots l s).cmd.slots[i] = .filled r := by
  induction l generalizing s with
  | nil => exact nomatch h
  | cons p l ih =>
    rw [List.map_cons, List.nodup_cons] at hn
    rcases List.mem_cons.1 h with rfl | h
    · rw [fillSlots, fillSlots_other hn.1, fillSlot_slots, setSlot, if_pos rfl]
    · exact ih hn.2 h

theorem fillSlots_append (a b : List (Fin 16 × Reply)) (s : State) :
    fillSlots (a ++ b) s = fillSlots b (fillSlots a s) := by
  induction a generalizing s with
  | nil => rfl
  | cons p a ih => exact ih _

/-- The replies of a RESET: the commands behind it, the awaits, and its own (R173). -/
def resetReplies (c : QueuedCommand) (s : State) : List (Fin 16 × Reply) :=
  s.cmd.queue.tail.map (fun x => (x.slot, replyTo x .aborted []))
    ++ s.cmd.awaits.map (fun a => (a.slot, awaitReply a .aborted [])) ++ [(c.slot, replyTo c .ok [])]

theorem resetReplies_slots (c : QueuedCommand) (s : State) : (resetReplies c s).map Prod.fst
    = s.cmd.queue.tail.map QueuedCommand.slot ++ s.cmd.awaits.map AwaitEntry.slot ++ [c.slot] := by
  simp [resetReplies, Function.comp_def]

/-- The state with those replies filled and reset pending set (R173). -/
def resetBegun (c : QueuedCommand) (o : ResetOption) (s : State) : State :=
  (s.withCmd { s.cmd with
    slots := (fillSlots (resetReplies c s) s).cmd.slots
    replyQueue := s.cmd.replyQueue ++ (resetReplies c s).map Prod.fst
    queue := [], awaits := [], resetPending := some o }).withTx { s.tx with told := true }

theorem beginReset_eq (c : QueuedCommand) (o : ResetOption) (s : State) :
    beginReset c o s = resetBegun c o s := by
  have filled : beginReset c o s = (fillSlots (resetReplies c s) s).withCmd
      { (fillSlots (resetReplies c s) s).cmd with
        queue := [], awaits := [], resetPending := some o } := by
    have awaits : ∀ l, (fillSlots l s).cmd.awaits = s.cmd.awaits := fun l => by
      rw [fillSlots_frame]
      rfl
    simp only [beginReset, resetReplies, fillSlots_append, answerEntries_eq, abortCommands_eq, awaits]
    rfl
  have told : (s.tx.told || !(resetReplies c s).isEmpty) = true := by simp [resetReplies]
  rw [filled, fillSlots_frame, told]
  rfl

theorem readResetOption_of {b : Byte} (h : b.toNat ≤ 1) :
    readResetOption b = some (if b = 0 then .plain else .holdLines) := by
  have : b = 0 ∨ b = 1 := by bv_omega
  rcases this with rfl | rfl <;> rfl

/-- The slots of a RESET's replies are those that were held. -/
theorem resetReplies_held (h : s.cmd.queue.head? = some c) :
    ((resetReplies c s).map Prod.fst).Perm (heldSlots s.cmd) := by
  obtain ⟨rest, hq⟩ := List.head?_eq_some_iff.1 h
  rw [resetReplies_slots, heldSlots, hq]
  exact List.perm_append_singleton ..

/-- Settles O46: the replies, each in its own slot, and what they leave. -/
theorem resetAbortsWhatWaitsAndSetsPending : Obligations.ResetAbortsWhatWaitsAndSetsPending := by
  intro option c s hw h hn
  have range : option.toNat ≤ 1 := by simpa [inRange, wellFormed] using hw
  have rule : ∀ go, hostRule (.reset option go) c s
      = beginReset c (if option = 0 then .plain else .holdLines) s := fun go => by
    simp only [hostRule, resetRule, readResetOption_of range]
  have perm := resetReplies_held h.oldest
  have nodup := perm.nodup_iff.2 hn
  refine ⟨resetBegun c (if option = 0 then .plain else .holdLines) s, fun go => ?next, rfl, rfl, rfl, ?fresh, rfl, ?queue, ?own, fun x hx => ?aborted,
    fun a ha => ?await, fun i hi => ?other, rfl, rfl, rfl, rfl⟩
  case next =>
    rw [h.exec go rfl, rule, beginReset_eq, goOn_unmade (by simp [resetBegun, h.may.start.fresh])]
    rfl
  case fresh => exact h.may.start.fresh
  case queue =>
    rw [List.append_assoc, List.append_assoc, ← List.append_assoc (s.cmd.queue.tail.map _),
      ← resetReplies_slots c s]
    rfl
  case own => exact fillSlots_own nodup (by simp [resetReplies])
  case aborted =>
    refine fillSlots_own nodup ?_
    simp only [resetReplies, List.mem_append, List.mem_map]
    exact .inl (.inl ⟨x, hx, rfl⟩)
  case await =>
    refine fillSlots_own nodup ?_
    simp only [resetReplies, List.mem_append, List.mem_map]
    exact .inl (.inr ⟨a, ha, rfl⟩)
  case other => exact fillSlots_other fun hm => hi (perm.mem_iff.1 hm)

/-! ## AWAIT (R166, R169) -/

theorem readHandle_of {gen slot : Byte} {h : Handle} (hg : gen ≠ 0) (hh : h.gen = gen)
    (hs : slot.toNat = h.slot.val) : readHandle gen slot = some h := by
  rw [readHandle, if_neg hg, readIndex_of hs, ← hh]
  rfl

theorem findRecord_isNone {x : Handle} :
    (findRecord x s).isNone = true ↔ ∀ r ∈ s.table.records, r.handle ≠ x := by
  rw [Option.isNone_iff_eq_none, findRecord_none]

/-- Settles O47: the checks in their order, and the expiry. -/
theorem awaitWaitsAndTimesOut : Obligations.AwaitWaitsAndTimesOut := by
  refine ⟨fun gen slot timeout x c s hg hx hs h => ?await, fun tag m a s hup ha hm => ?expires⟩
  case await =>
    have rule : awaitRule gen slot timeout c s = if (findRecord x s).isNone then answer c .noSuch [] s
        else if 8 ≤ s.cmd.awaits.length then answer c .awaitFull [] s
        else placeAwait c x timeout s := by
      simp only [awaitRule, readHandle_of hg hx hs]
      rfl
    have live : (∃ r ∈ s.table.records, r.handle = x) → ¬(findRecord x s).isNone = true := by
      rw [findRecord_isNone]
      exact fun ⟨r, hr, he⟩ hn => hn r hr he
    refine ⟨fun hn => ?_, fun hl hf => ?_, fun hl hf go => ?_⟩
    · exact h.replies (fun _ => rfl) (fun _ => rule.trans (if_pos (findRecord_isNone.2 hn))) rfl
    · exact h.replies (fun _ => rfl) (fun _ => rule.trans ((if_neg (live hl)).trans (if_pos hf))) rfl
    · have placed : hostRule (.await gen slot timeout go) c s = placeAwait c x timeout s :=
        rule.trans ((if_neg (live hl)).trans (if_neg (Nat.not_le.2 hf)))
      rw [h.exec go rfl, placed, goOn_unmade (by simp [placeAwait, h.may.start.fresh])]
      rfl
  case expires =>
    have timed : timedAwait tag s = some a := ha
    refine exec_of_eventOf (.inl rfl) rfl hup ?_
    simp only [eventOf, timed, Option.map_some, hm]
    rfl

end Sys2Proof.Machine
end

section
/-! The resets: a soft reset once drained, and the device resets (R64, R150, R156, R175, R176, R179, R193,
R194). -/

namespace Sys2Proof.Machine

variable {s t u : State} {option : ResetOption}

/-! ## The soft reset (R175, R194) -/

theorem drained_iff (s : State) : drained s = true
    ↔ (∀ i : Fin 16, s.cmd.slots[i] = .free) ∧ s.cmd.replyQueue = [] ∧ s.tx.state = .idle := by
  have slots : (∀ x ∈ s.cmd.slots, x = SlotState.free) ↔ ∀ i : Fin 16, s.cmd.slots[i] = .free := by
    simp only [Vector.mem_iff_getElem]
    exact ⟨fun h i => h _ ⟨i.val, i.isLt, rfl⟩, fun h x ⟨i, hi, hx⟩ => hx ▸ h ⟨i, hi⟩⟩
  simp only [drained, Bool.and_eq_true, List.isEmpty_iff, List.all_eq_true, decide_eq_true_eq,
    Vector.mem_toList_iff, slots]
  tauto

/-- The lines after a soft reset (R64). -/
theorem resetLines_eq (option : ResetOption) (s : State) (n : Fin 8) : (resetLines option s)[n]
    = match option with
      | .plain => ⟨.direct, .low, .low, none⟩
      | .holdLines => ⟨.direct, s.lines[n].idle, s.lines[n].level, none⟩ := by
  cases option with
  | plain => exact Vector.getElem_replicate ..
  | holdLines => exact mapAll_getElem ..

theorem resetSampler_eq (s : State) : resetSampler s = { State.reset.sampler with
    recoveryEnd := if s.sampler.conv.inProgress then some (s.now + 3) else s.sampler.recoveryEnd } := rfl

theorem exec_resetApplies (hup : s.pins.resetActive = false) (hp : s.cmd.resetPending = some option)
    (hd : drained s = true) : exec .resetApplies s = .next (settle (softReset option s)) :=
  exec_of_eventOf (.inl rfl) rfl hup (by simp only [eventOf, hp, if_pos hd])

theorem exec_resetApplies_none (h : ∀ o, s.cmd.resetPending = some o → drained s = false) :
    exec .resetApplies s = .next s := by
  refine exec_of_eventOf_none (.inl rfl) rfl fun _ => ?_
  cases hp : s.cmd.resetPending with
  | none => simp only [eventOf, hp]
  | some o => simp [eventOf, hp, h o hp]

/-- With the boundary left out of the ending, an idle transmitter keeps its telling. -/
theorem settle_nothing {rest : List (List EndClaim)} (hend : s.endings = [] :: rest)
    (hrem : s.removals = []) (hidle : s.tx.state = .idle) : settle s = s.withEndings rest := by
  have left : takeRemovals (s.withEndings rest) = s.withEndings rest := takeRemovals_none hrem
  simp [settle, hend, left, dropTelling, hidle]

/-- Settles O52: before the drain is over, and then the values and the three endings. -/
theorem softResetAppliesWhenDrained : Obligations.SoftResetAppliesWhenDrained := by
  intro option s hup hp ready
  refine ⟨fun hd => ?before, fun hd => ⟨resetLines option s, resetLines_eq option s, ?_⟩⟩
  case before =>
    refine exec_resetApplies_none fun _ _ => ?_
    rw [← Bool.not_eq_true, drained_iff]
    exact hd
  intro u
  have values : softReset option s = u := by
    have idle : ({ s.tx with told := true } : Transmitter) = ⟨.idle, true⟩ :=
      congrArg (Transmitter.mk · true) hd.2.2
    rw [softReset, resetSampler_eq, idle]
    rfl
  have step : exec .resetApplies s = .next (settle u) := by
    rw [exec_resetApplies hup hp ((drained_iff s).2 hd), values]
  refine ⟨step, fun hoff hend => step.trans (congrArg _ ?_), fun rest hend =>
    step.trans (congrArg _ (settle_nothing hend rfl rfl))⟩
  rw [settle_boundary (s := u) hoff rfl hend rfl rfl,
    boundary_notice (s := u.withTx { u.tx with told := false }) rfl rfl rfl]
  rfl

/-! ## The device resets (R150, R176, R193) -/

theorem rateCode_eq (rate1 rate0 : Level) : rateCode rate1 rate0 = match rate1, rate0 with
    | .low, .low => 0 | .low, .high => 1 | .high, .low => 2 | .high, .high => 3 := by
  cases rate1 <;> cases rate0 <;> rfl

/-- Settles O53, reset by reset. -/
theorem deviceResetsSetTheResetValues : Obligations.DeviceResetsSetTheResetValues := by
  intro rate1 rate0 s code released
  have rate : rateCode rate1 rate0 = code := rateCode_eq rate1 rate0
  refine ⟨⟨_, rfl, rfl, rfl, ?powerOn⟩, ⟨_, rfl, rfl, rfl, rfl⟩, fun hheld => ⟨_, if_pos hheld,
    fun h => ?idle, ?released⟩⟩
  case powerOn => rw [← rate]
  case released =>
    rw [← rate]
    rfl
  case idle =>
    have held := h hheld
    have tx : s.tx.state = .postReset := by rw [held]; rfl
    have waits : s.rx.waitHigh = true := by rw [held]; rfl
    exact ⟨by simp only [txdLevels, tx], waits⟩

end Sys2Proof.Machine
end

section
/-! An event without its occasion changes nothing, event by event, and the step of an empty queue. -/

namespace Sys2Proof.Machine

variable {s t u : State} {i : Instr}

/-- The events that the RESET pin shuts out. -/
theorem isDeviceReset_eq_false (hp : ∀ a b, i ≠ .powerOn a b) (hr : i ≠ .resetPin)
    (hl : ∀ a b, i ≠ .resetPinRelease a b) : isDeviceReset i = false := by
  cases i with
  | powerOn a b => exact absurd rfl (hp a b)
  | resetPin => exact absurd rfl hr
  | resetPinRelease a b => exact absurd rfl (hl a b)
  | _ => rfl

theorem exec_held (he : frameOf i = none) (hd : isDeviceReset i = false)
    (hup : s.pins.resetActive = true) : exec i s = .next s :=
  exec_of_eventOf_none (.inr he) hd fun h => absurd (hup.symm.trans h) (by simp)

/-! ## The timebase and the channels -/

theorem samplesDue_iff (s : State) :
    samplesDue s = true ↔ ∃ n : Fin 8, s.channels[n].sampling = .due := by
  simp only [samplesDue, List.any_eq_true, decide_eq_true_eq, Vector.mem_toList_iff,
    Vector.mem_iff_getElem]
  exact ⟨fun ⟨_, ⟨n, hn, h⟩, hd⟩ => ⟨⟨n, hn⟩, (congrArg Channel.sampling h).trans hd⟩,
    fun ⟨n, hd⟩ => ⟨_, ⟨n.val, n.isLt, rfl⟩, hd⟩⟩

theorem periodEnds_iff (s : State) : periodEnds s = true ↔ s.time.prescaler ≤ s.time.count + 1 :=
  decide_eq_true_iff

theorem eventOf_sourcePeriod_none (h : periodEnds s = true ∨ samplesDue s = true) :
    eventOf .sourcePeriod s = none := if_pos (by simpa using h)

theorem eventOf_tickClockPeriod_none (h : periodEnds s = false ∨ samplesDue s = true) (pin : Level)
    (taken : List TakenEvents) : eventOf (.tickClockPeriod pin taken) s = none :=
  if_pos (by simpa using h)

/-- A channel takes no sample at two of the places. -/
theorem eventOf_channelSample_none {n : Fin 8} (h : s.channels[n].run = .off
      ∨ s.channels[n].sampling = .ahead ∨ s.channels[n].sampling = .inStep ∧ periodEnds s = false)
    (pin : Level) : eventOf (.channelSample n pin) s = none := by
  rw [eventOf]
  split
  · rfl
  · rename_i hrun
    rcases h.resolve_left hrun with hp | ⟨hp, he⟩
    · rw [hp]
      rfl
    · rw [hp, he]
      rfl

/-! ## The sampler -/

theorem eventOf_endOfAcquisition_none (h : ∀ x m, s.sampler.conv ≠ .acquiring x m) (v : BitVec 12) :
    eventOf (.endOfAcquisition v) s = none := by
  cases hc : s.sampler.conv with
  | acquiring x m => exact absurd hc (h x m)
  | off | idle | converting | recovering => simp only [eventOf, hc]

theorem eventOf_endOfConversion_none (h : ∀ x y m, s.sampler.conv ≠ .converting x y m) :
    eventOf .endOfConversion s = none := by
  cases hc : s.sampler.conv with
  | converting x y m => exact absurd hc (h x y m)
  | off | idle | acquiring | recovering => simp only [eventOf, hc]

/-! ## The triggers -/

theorem eventOf_triggerSourceEvent_none {b : EventBlock}
    (h : (∀ e ∈ s.handed.events, e.source.block ≠ b) ∨ s.triggers.claim.isSome) :
    eventOf (.triggerSourceEvent b) s = none := by
  rw [eventOf]
  split
  · rfl
  · rename_i hc
    have none : oldestEvent b s.handed.events = none :=
      List.find?_eq_none.2 fun e he => by simpa using h.resolve_right hc e he
    rw [none]
    rfl

theorem eventOf_triggerAdmissionRequest_none
    (h : ∀ e r, s.triggers.claim = some (.event e r) → r.replaces.isSome) :
    eventOf .triggerAdmissionRequest s = none := by
  cases hc : s.triggers.claim with
  | none => simp only [eventOf, hc]
  | some x =>
    cases x with
    | clearing => simp only [eventOf, hc]
    | event e r =>
      obtain ⟨old, hold⟩ := Option.isSome_iff_exists.1 (h e r hc)
      simp only [eventOf, hc, hold]

theorem eventOf_replacementAdmission_none
    (h : ∀ e r, s.triggers.claim = some (.event e r) → r.replaces = none) :
    eventOf .replacementAdmission s = none := by
  cases hc : s.triggers.claim with
  | none => simp only [eventOf, hc]
  | some x =>
    cases x with
    | clearing => simp only [eventOf, hc]
    | event e r => simp only [eventOf, hc, h e r hc]

theorem eventOf_triggerCancelRequest_none
    (h : ∀ x rest n, s.triggers.claim ≠ some (.clearing (x :: rest) n)) (go : Extent) :
    eventOf (.triggerCancelRequest go) s = none := by
  cases hc : s.triggers.claim with
  | none => simp only [eventOf, hc]
  | some x =>
    cases x with
    | event => simp only [eventOf, hc]
    | clearing l n =>
      cases l with
      | nil => simp only [eventOf, hc]
      | cons x rest => exact absurd hc (h x rest n)

/-! ## The stream -/

theorem eventOf_stampOffer_none {b : StampBlock} (h : ∀ o ∈ s.handed.offers, o.what.block ≠ b) :
    eventOf (.stampOffer b) s = none := by
  have none : oldestOffer b s.handed.offers = none :=
    List.find?_eq_none.2 fun o ho => by simpa using h o ho
  rw [eventOf, none]
  rfl

theorem eventOf_ack_none {q : Byte}
    (h : ∀ p rest, s.handed.acks = p :: rest → p.length = 1 ∧ p ≠ [q]) : eventOf (.ack q) s = none := by
  cases ha : s.handed.acks with
  | nil => simp only [eventOf, ha]
  | cons p rest =>
    obtain ⟨hl, hp⟩ := h p rest ha
    simp [eventOf, ha, hl, hp]

theorem eventOf_holdTimeReached_none (h : s.stream.state ≠ .on ∨ 4 ≤ s.stream.window.length
      ∨ ∀ e ∈ s.stamps.entries, e.state ≠ .waiting) : eventOf .holdTimeReached s = none := by
  cases hw : waitingEntries s with
  | nil => simp only [eventOf, hw]
  | cons e rest =>
    have waits : e ∈ waitingEntries s := hw ▸ List.mem_cons_self
    obtain ⟨he, hs⟩ := List.mem_filter.1 waits
    simp only [eventOf, hw]
    refine if_neg fun ⟨hon, hroom⟩ => ?_
    rcases h with h | h | h
    · exact h hon
    · exact absurd hroom (Nat.not_lt.2 h)
    · exact h e he (isWaiting_iff.1 hs)

/-! ## The link -/

theorem hears_eq_false {ch : RxChar} {r : Receiver}
    (h : r.waitHigh = true ∧ ch.rose = false ∨ ch.startMid = .high) : r.hears ch ≠ true := by
  rw [Ne, hears_iff]
  rintro ⟨hb, hm⟩
  rcases h with ⟨hw, hr⟩ | h
  · simp [hw, hr] at hb
  · exact nomatch h.symm.trans hm

theorem eventOf_gapExpiry_none (h : s.rx.state = .hunt ∨ s.rx.gapExpiry = none) :
    eventOf .gapExpiry s = none := by
  cases hg : s.rx.gapExpiry with
  | none => simp only [eventOf, hg]
  | some m =>
    simp only [eventOf, hg]
    exact if_pos (h.resolve_right (by simp [hg]))

theorem eventOf_endOfTransmission_none (h : ∀ x f, s.tx.state ≠ .sending x f) :
    eventOf .endOfTransmission s = none := by
  cases hx : s.tx.state with
  | sending x f => exact absurd hx (h x f)
  | idle | postReset => simp only [eventOf, hx]

theorem eventOf_postResetIdleEnd_none (h : s.tx.state ≠ .postReset) :
    eventOf .postResetIdleEnd s = none := by
  cases hx : s.tx.state with
  | postReset => exact absurd hx h
  | idle | sending => simp only [eventOf, hx]

/-! ## The command block -/

theorem eventOf_awaitTimeout_none {tag : Byte}
    (h : ∀ a ∈ s.cmd.awaits, a.tag = tag → a.expiry = none) : eventOf (.awaitTimeout tag) s = none := by
  have none : timedAwait tag s = none :=
    List.find?_eq_none.2 fun a ha ht => by
      simp only [Bool.and_eq_true, decide_eq_true_eq] at ht
      simp [h a ha ht.1] at ht
  rw [eventOf, none]
  rfl

/-- Settles O54, event by event. -/
theorem eventWithoutItsOccasionChangesNothing :
    Obligations.EventWithoutItsOccasionChangesNothing := by
  intro s
  have absent : ∀ {i}, extentOf i = none ∨ frameOf i = none → isDeviceReset i = false →
      eventOf i s = none → exec i s = .next s :=
    fun he hd h => exec_of_eventOf_none he hd fun _ => h
  have due : (∃ n : Fin 8, s.channels[n].sampling = .due) → samplesDue s = true := (samplesDue_iff s).2
  have within : s.time.count + 1 < s.time.prescaler → periodEnds s = false := fun h => by
    rw [← Bool.not_eq_true, periodEnds_iff]
    exact Nat.not_le.2 h
  refine ⟨fun hup i hf hp hr hl => exec_held hf (isDeviceReset_eq_false hp hr hl) hup,
    fun hup a b => ?release,
    fun h => absent (.inl rfl) rfl (eventOf_sourcePeriod_none (.inl ((periodEnds_iff s).2 h))),
    fun h g v => absent (.inl rfl) rfl (eventOf_tickClockPeriod_none (.inl (within h)) g v),
    fun h => ⟨absent (.inl rfl) rfl (eventOf_sourcePeriod_none (.inr (due h))),
      fun g v => absent (.inl rfl) rfl (eventOf_tickClockPeriod_none (.inr (due h)) g v)⟩,
    fun n h v => absent (.inl rfl) rfl (eventOf_channelSample_none
      (h.imp id (Or.imp id (And.imp id within))) v),
    fun h v => absent (.inl rfl) rfl (eventOf_endOfAcquisition_none h v),
    fun h => absent (.inl rfl) rfl (eventOf_endOfConversion_none h),
    fun h => absent (.inl rfl) rfl ?recoveryEnd,
    fun b h => absent (.inl rfl) rfl (eventOf_triggerSourceEvent_none h),
    fun h => absent (.inl rfl) rfl (eventOf_triggerAdmissionRequest_none h),
    fun h => absent (.inl rfl) rfl (eventOf_replacementAdmission_none h),
    fun h go => absent (.inr rfl) rfl (eventOf_triggerCancelRequest_none h go),
    fun b h => absent (.inl rfl) rfl (eventOf_stampOffer_none h),
    fun q h => absent (.inl rfl) rfl (eventOf_ack_none h),
    fun h => absent (.inl rfl) rfl (eventOf_holdTimeReached_none h),
    fun h => absent (.inl rfl) rfl ?expiry,
    fun c => ⟨fun h => absent (.inl rfl) rfl (if_neg fun ⟨hs, hc⟩ => ?_),
      fun h => absent (.inl rfl) rfl (if_neg fun ⟨hs, hc, hl⟩ => ?_)⟩,
    fun h => absent (.inl rfl) rfl (eventOf_gapExpiry_none h),
    fun h => absent (.inl rfl) rfl (eventOf_endOfTransmission_none h),
    fun h => absent (.inl rfl) rfl (eventOf_postResetIdleEnd_none h),
    fun tag h => absent (.inl rfl) rfl (eventOf_awaitTimeout_none h),
    fun h => exec_resetApplies_none fun o ho => ?undrained, fun h => ?passing⟩
  case release => exact if_neg (by simp [hup])
  case recoveryEnd => rw [eventOf, h]; rfl
  case expiry => rw [eventOf, h]; rfl
  case undrained =>
    rw [← Bool.not_eq_true, drained_iff]
    rintro ⟨hfree, hq, hidle⟩
    rcases h with h | h | h | ⟨i, hi⟩
    · exact nomatch h.symm.trans ho
    · exact h hq
    · exact h hidle
    · exact hi (hfree i)
  case passing =>
    rw [step, h]
    exact (apply_ite Host.Outcome.next _ _ _).symm
  · exact h.elim (fun hn => hn hs) fun hn => hears_eq_false hn hc
  · rcases h with h | h | h
    · exact h hs
    · exact absurd hl (Nat.not_lt.2 h)
    · exact hears_eq_false h hc

end Sys2Proof.Machine
end

section
/-! A frame's bytes, taken one after the other by a receive machine in HUNT, are that frame; what TXD drives
(R179, R182, R185, R188). -/

namespace Sys2Proof.Machine

variable {s : State} {r : Receiver} {f : Frame}

/-! ## The bytes of a frame, by their place -/

theorem takeByte_hunt (h : r.state = .hunt) : takeByte syncByte (s.withRx r)
    = s.withRx (({ r.hunting with state := .len, check := 0xFFFF }).heard s.now) := by
  simp only [takeByte, withRx_rx, h, if_true]
  rfl

theorem takeByte_tag {b : Byte} (h : r.state = .tag) : takeByte b (s.withRx r)
    = s.withRx (({ r with state := .kind, tag := b, check := crcByte r.check b }).heard s.now) := by
  simp only [takeByte, withRx_rx, h]
  rfl

theorem takeByte_kind {b : Byte} (h : r.state = .kind) : takeByte b (s.withRx r)
    = s.withRx (({ r with state := if r.length = 0 then .crcHi else .body, kind := b
                          check := crcByte r.check b }).heard s.now) := by
  simp only [takeByte, withRx_rx, h]
  rfl

theorem takeByte_body {b : Byte} (h : r.state = .body) : takeByte b (s.withRx r)
    = s.withRx (({ r with
        state := if (r.payload ++ [b]).length < r.length then .body else .crcHi
        payload := r.payload ++ [b], check := crcByte r.check b }).heard s.now) := by
  simp only [takeByte, withRx_rx, h]
  rfl

theorem takeByte_crcHi {b : Byte} (h : r.state = .crcHi) : takeByte b (s.withRx r)
    = s.withRx (({ r with state := .crcLo, checkHigh := b }).heard s.now) := by
  simp only [takeByte, withRx_rx, h]
  rfl

/-- The payload's bytes, up to the last (R182). -/
theorem takeByte_foldl_body (p : Payload) (hs : r.state = if p = [] then .crcHi else .body)
    (hl : r.length = r.payload.length + p.length)
    (hg : r.gapExpiry = some (s.now + Config.gapMicros)) :
    p.foldl (fun s b => takeByte b s) (s.withRx r) = s.withRx { r with
      state := .crcHi, payload := r.payload ++ p, check := p.foldl crcByte r.check } := by
  induction p generalizing r with
  | nil =>
    rw [if_pos rfl] at hs
    simp [← hs]
  | cons b p ih =>
    rw [if_neg (List.cons_ne_nil b p)] at hs
    have whole : r.length = r.payload.length + (p.length + 1) := hl
    have taken : (r.payload ++ [b]).length = r.payload.length + 1 := by simp
    rw [List.foldl_cons, takeByte_body hs, ih]
    · simp [Receiver.heard, ← hg]
    · simp only [Receiver.heard, taken, whole]
      cases p <;> simp
    · simp only [Receiver.heard, taken, whole]
      omega
    · rfl

/-- The two check bytes are the check (R185, R195). -/
theorem checkBytes_append (x : BitVec 16) :
    BitVec.ofNat 8 (x.toNat / 256 ^ 1) ++ BitVec.ofNat 8 (x.toNat / 256 ^ 0) = x := by
  refine BitVec.eq_of_toNat_eq ?_
  have small := x.isLt
  rw [BitVec.toNat_append, ← Nat.shiftLeft_add_eq_or_of_lt (BitVec.isLt _)]
  simp only [BitVec.toNat_ofNat, Nat.shiftLeft_eq]
  omega

/-- The machine at the payload of a frame that it has heard from HUNT (R182). -/
def atPayload (f : Frame) (now : Moment) (r : Receiver) : Receiver :=
  { r.hunting with
    state := if f.payload = [] then .crcHi else .body
    length := f.payload.length, tag := f.tag, kind := f.kind
    check := [BitVec.ofNat 8 f.payload.length, f.tag, f.kind].foldl crcByte 0xFFFF
    gapExpiry := some (now + Config.gapMicros) }

/-- SYNC, LEN, TAG and KIND. -/
theorem takeByte_foldl_head (hp : f.payload.length ≤ Config.maxPayload) (h : r.state = .hunt) :
    [syncByte, BitVec.ofNat 8 f.payload.length, f.tag, f.kind].foldl (fun s b => takeByte b s)
      (s.withRx r) = s.withRx (atPayload f s.now r) := by
  have fits : (BitVec.ofNat 8 f.payload.length).toNat = f.payload.length := by
    rw [BitVec.toNat_ofNat]
    exact Nat.mod_eq_of_lt (Nat.lt_of_le_of_lt hp (by decide))
  have empty : f.payload.length = 0 ↔ f.payload = [] := List.length_eq_zero_iff
  simp only [List.foldl_cons, List.foldl_nil, takeByte_hunt h]
  rw [takeByte_len (s := s.withRx _) rfl (fits.trans_le hp), takeByte_tag rfl, takeByte_kind rfl]
  simp only [fits, Receiver.heard, withRx_rx, empty]
  rfl

/-- The check bytes of what has been taken (R186). -/
theorem takeByte_foldl_check (h : r.state = .crcHi) :
    (be 2 r.check.toNat).foldl (fun s b => takeByte b s) (s.withRx r)
      = sortFrame r.tag r.kind r.payload (s.withRx r.hunting) := by
  simp only [be, List.foldl_cons, List.foldl_nil, takeByte_crcHi h]
  rw [takeByte_crcLo (s := s.withRx _) _ rfl]
  refine (if_neg (not_not.2 (checkBytes_append r.check))).trans ?_
  rfl

/-- A frame's bytes from HUNT. -/
theorem takeByte_foldl_frame (hp : f.payload.length ≤ Config.maxPayload) (h : s.rx.state = .hunt) :
    (frameBytes f).foldl (fun s b => takeByte b s) s
      = sortFrame f.tag f.kind f.payload (s.withRx s.rx.hunting) := by
  have bytes : frameBytes f = [syncByte, BitVec.ofNat 8 f.payload.length, f.tag, f.kind]
      ++ (f.payload ++ be 2 (f.payload.foldl crcByte
        ([BitVec.ofNat 8 f.payload.length, f.tag, f.kind].foldl crcByte 0xFFFF)).toNat) := by
    simp [frameBytes, crcOf]
  have head := takeByte_foldl_head (s := s) (r := s.rx) hp h
  rw [show s.withRx s.rx = s from rfl] at head
  rw [bytes, List.foldl_append, head, List.foldl_append,
    takeByte_foldl_body f.payload rfl (Nat.zero_add _).symm rfl]
  exact takeByte_foldl_check rfl

/-! ## TXD (R179, R188) -/

theorem charLevels_eq (b : Byte) : charLevels b
    = .low :: ((List.range 8).map (fun i => if b.toNat / 2 ^ i % 2 = 1 then Level.high else .low)
      ++ [.high]) := by
  have bit : ∀ i, b.getLsbD i = decide (b.toNat / 2 ^ i % 2 = 1) := fun i => by
    rw [BitVec.getLsbD, Nat.testBit_eq_decide_div_mod_eq]
  simp only [charLevels, bit, decide_eq_true_eq]
  rfl

/-- Settles O4: the fold over the frame's bytes, and the levels of its characters. -/
theorem sentFrameIsReceivedWhole : Obligations.SentFrameIsReceivedWhole := by
  refine ⟨fun f s hp h => takeByte_foldl_frame hp h, fun src f s h => ?_, fun s h => ?_⟩
  · simp only [txdLevels, h, frameLevels]
    exact congrArg (fun g => (frameBytes f).flatMap g) (funext charLevels_eq)
  · rcases h with h | h <;> simp only [txdLevels, h]

end Sys2Proof.Machine
end

section
/-! The payloads of the host commands: what is written is read back, and what is read is what was written
(R195, R196). -/

namespace Sys2Proof.Machine

variable {p : Payload} {k : Byte} {i : Instr}

/-! ## Numbers in bytes (R195) -/

theorem foldl_unbe (l : Payload) (a : Nat) :
    l.foldl (fun a b => a * 256 + b.toNat) a = a * 256 ^ l.length + unbe l := by
  induction l generalizing a with
  | nil => simp [unbe]
  | cons b l ih =>
    have first := ih b.toNat
    simp only [unbe, List.foldl_cons, ih (a * 256 + b.toNat), Nat.zero_mul, Nat.zero_add, first,
      List.length_cons, Nat.pow_succ]
    ring

theorem unbe_cons (b : Byte) (l : Payload) : unbe (b :: l) = b.toNat * 256 ^ l.length + unbe l := by
  rw [unbe, List.foldl_cons, foldl_unbe, Nat.zero_mul, Nat.zero_add]

theorem unbe_lt (l : Payload) : unbe l < 256 ^ l.length := by
  induction l with
  | nil => simp [unbe]
  | cons b l ih =>
    have hb := b.isLt
    rw [unbe_cons, List.length_cons, Nat.pow_succ]
    nlinarith

theorem unbe_be (n x : Nat) : unbe (be n x) = x % 256 ^ n := by
  induction n with
  | zero => simp [be, unbe, Nat.mod_one]
  | succ n ih =>
    have digit : x % 256 ^ (n + 1) = x % 256 ^ n + 256 ^ n * (x / 256 ^ n % 2 ^ 8) := by
      rw [Nat.pow_succ, Nat.mod_mul, show (2 : Nat) ^ 8 = 256 from rfl]
    rw [be, unbe_cons, ih, be_length, BitVec.toNat_ofNat, digit, Nat.add_comm, Nat.mul_comm]

theorem be_unbe (l : Payload) (a : Nat) : be l.length (a * 256 ^ l.length + unbe l) = l := by
  induction l generalizing a with
  | nil => rfl
  | cons b l ih =>
    have high : (a * 256 ^ (l.length + 1) + (b.toNat * 256 ^ l.length + unbe l)) / 256 ^ l.length
        = a * 256 + b.toNat := by
      rw [show a * 256 ^ (l.length + 1) + (b.toNat * 256 ^ l.length + unbe l)
          = unbe l + 256 ^ l.length * (a * 256 + b.toNat) by ring,
        Nat.add_mul_div_left _ _ (by positivity), Nat.div_eq_of_lt (unbe_lt l), Nat.zero_add]
    have low : a * 256 ^ (l.length + 1) + (b.toNat * 256 ^ l.length + unbe l)
        = (a * 256 + b.toNat) * 256 ^ l.length + unbe l := by ring
    have byte : BitVec.ofNat 8 (a * 256 + b.toNat) = b := by
      refine BitVec.eq_of_toNat_eq ?_
      have := b.isLt
      rw [BitVec.toNat_ofNat]
      omega
    rw [List.length_cons, unbe_cons, be, high, byte, low, ih]

/-- A field's bytes are read as the field. -/
theorem ofNat_unbe_be (n : Nat) (x : BitVec (8 * n)) :
    BitVec.ofNat (8 * n) (unbe (be n x.toNat)) = x := by
  refine BitVec.eq_of_toNat_eq ?_
  have width : (256 : Nat) ^ n = 2 ^ (8 * n) := by rw [Nat.pow_mul]
  rw [unbe_be, BitVec.toNat_ofNat, width, Nat.mod_mod, Nat.mod_eq_of_lt x.isLt]

/-! ## Bytes at their places -/

theorem take_drop_eq {a n : Nat} (h : a + n ≤ p.length) :
    (p.drop a).take n = (List.range n).map fun j => byteAt (a + j) p := by
  refine List.ext_getElem (by simp; omega) fun j hj hj' => ?_
  have inside : a + j < p.length := by simp at hj'; omega
  simp [byteAt, inside]

/-- A payload is its bytes, place by place. -/
theorem bytes_eq (n : Nat) (h : p.length = n) : (List.range n).map (fun j => byteAt (0 + j) p) = p := by
  rw [← take_drop_eq (by omega), List.drop_zero, List.take_of_length_le (by omega)]

/-- The bytes of a number that has been read are those it was read from. -/
theorem be_numAt (a n : Nat) (h : a + n ≤ p.length) :
    be n (BitVec.ofNat (8 * n) (numAt a n p)).toNat
      = (List.range n).map fun j => byteAt (a + j) p := by
  have length : ((p.drop a).take n).length = n := by simp; omega
  have width : (256 : Nat) ^ n = 2 ^ (8 * n) := by rw [Nat.pow_mul]
  have small : numAt a n p < 2 ^ (8 * n) := by
    have := unbe_lt ((p.drop a).take n)
    rwa [length, width] at this
  have written := be_unbe ((p.drop a).take n) 0
  rw [length, Nat.zero_mul, Nat.zero_add] at written
  rw [BitVec.toNat_ofNat, Nat.mod_eq_of_lt small, numAt, written, take_drop_eq h]

/-! ## What is written is read back -/

theorem readSchedule_schedulePayload (f : ScheduleFields) : readSchedule (schedulePayload f) = f := by
  have width := ofNat_unbe_be 2 f.action.width
  have period := ofNat_unbe_be 4 f.action.period
  have count := ofNat_unbe_be 2 f.action.count
  have label := ofNat_unbe_be 2 f.action.label
  have due := ofNat_unbe_be 6 f.dueValue
  calc readSchedule (schedulePayload f)
      = ⟨⟨f.action.kind, f.action.target, BitVec.ofNat (8 * 2) (unbe (be 2 f.action.width.toNat)),
          BitVec.ofNat (8 * 4) (unbe (be 4 f.action.period.toNat)),
          BitVec.ofNat (8 * 2) (unbe (be 2 f.action.count.toNat)), f.action.report, f.action.n,
          f.action.late, BitVec.ofNat (8 * 2) (unbe (be 2 f.action.label.toNat))⟩, f.dueMode,
        BitVec.ofNat (8 * 6) (unbe (be 6 f.dueValue.toNat))⟩ := rfl
    _ = f := by rw [width, period, count, label, due]

theorem readTrigger_triggerPayload (f : TriggerFields) : readTrigger (triggerPayload f) = f := by
  have source := ofNat_unbe_be 2 f.sourceLabel
  have delay := ofNat_unbe_be 4 f.delay
  have width := ofNat_unbe_be 2 f.template.width
  have period := ofNat_unbe_be 4 f.template.period
  have count := ofNat_unbe_be 2 f.template.count
  have label := ofNat_unbe_be 2 f.template.label
  calc readTrigger (triggerPayload f)
      = ⟨f.slot, f.sourceKind, f.sourceNumber, f.sourceZone,
          BitVec.ofNat (8 * 2) (unbe (be 2 f.sourceLabel.toNat)), f.shots,
          BitVec.ofNat (8 * 4) (unbe (be 4 f.delay.toNat)), f.limit, f.atLimit,
          ⟨f.template.kind, f.template.target,
            BitVec.ofNat (8 * 2) (unbe (be 2 f.template.width.toNat)),
            BitVec.ofNat (8 * 4) (unbe (be 4 f.template.period.toNat)),
            BitVec.ofNat (8 * 2) (unbe (be 2 f.template.count.toNat)), f.template.report,
            f.template.n, f.template.late,
            BitVec.ofNat (8 * 2) (unbe (be 2 f.template.label.toNat))⟩⟩ := rfl
    _ = f := by rw [source, delay, width, period, count, label]

/-- A payload that is read as a command, at some levels of the pins and for some extent of its step. -/
def ReadAs (k : Byte) (p : Payload) (i : Instr) : Prop :=
  lengthOf k = some p.length ∧ p.length ≤ Config.maxPayload
    ∧ ∃ gatePin inPin go, commandOf gatePin inPin go k p = some i

/-- No kind's payload is longer than a frame can carry. -/
theorem lengthOf_le {n : Nat} (h : lengthOf k = some n) : n ≤ Config.maxPayload := by
  unfold lengthOf at h
  split_ifs at h <;> cases h <;> decide

theorem readAs_of (gatePin inPin : Level) (go : Extent) (hl : lengthOf k = some p.length)
    (h : commandFields gatePin inPin go k p = some i) : ReadAs k p i :=
  ⟨hl, lengthOf_le hl, gatePin, inPin, go, (if_pos hl).trans h⟩

/-- Every host command's payload is read as that command. -/
theorem readAs_of_frameOf (h : frameOf i = some (k, p)) : ReadAs k p i := by
  cases i with
  | hello go | status go | stop go | getTime go | lineStatus go =>
    cases h
    exact readAs_of .low .low go rfl rfl
  | reset _ go | listActions _ go | channelOff _ go | channelStatus _ go | triggerStatus _ go
  | read _ go | release _ go =>
    cases h
    exact readAs_of .low .low go rfl rfl
  | clock _ _ go | cancel _ _ go | cancelLine _ _ go | drive _ _ go | sampler _ _ go
  | triggerArm _ _ go | triggerClear _ _ go =>
    cases h
    exact readAs_of .low .low go rfl rfl
  | line _ _ _ go =>
    cases h
    exact readAs_of .low .low go rfl rfl
  | ack _ =>
    cases h
    exact readAs_of .low .low .toReply rfl rfl
  | start pin go | gate _ _ pin go =>
    cases h
    exact readAs_of pin .low go rfl rfl
  | channel f pin go =>
    cases h
    exact readAs_of .low pin go rfl rfl
  | setTime value go =>
    cases h
    exact readAs_of .low .low go rfl
      (congrArg (fun x => some (Instr.setTime x go)) (ofNat_unbe_be 6 value))
  | await gen slot timeout go =>
    cases h
    exact readAs_of .low .low go rfl
      (congrArg (fun x => some (Instr.await gen slot x go)) (ofNat_unbe_be 2 timeout))
  | window input low high queue go =>
    cases h
    exact readAs_of .low .low go rfl (congrArg₂ (fun x y => some (Instr.window input x y queue go))
      (ofNat_unbe_be 2 low) (ofNat_unbe_be 2 high))
  | stream f go =>
    cases h
    exact readAs_of .low .low go rfl (congrArg (fun x => some (Instr.stream
      ⟨f.enable, f.batch, f.hold, x, f.retryLimit⟩ go)) (ofNat_unbe_be 2 f.interval))
  | schedule f go =>
    cases h
    exact readAs_of .low .low go rfl
      (congrArg (fun x => some (Instr.schedule x go)) (readSchedule_schedulePayload f))
  | trigger f go =>
    cases h
    exact readAs_of .low .low go rfl
      (congrArg (fun x => some (Instr.trigger x go)) (readTrigger_triggerPayload f))
  | _ => exact nomatch h

/-! ## What is read is what was written -/

theorem schedulePayload_readSchedule (h : p.length = 22) : schedulePayload (readSchedule p) = p := by
  have width := be_numAt (p := p) 2 2 (by omega)
  have due := be_numAt (p := p) 5 6 (by omega)
  have period := be_numAt (p := p) 11 4 (by omega)
  have count := be_numAt (p := p) 15 2 (by omega)
  have label := be_numAt (p := p) 20 2 (by omega)
  simp only [schedulePayload, readSchedule]
  rw [width, due, period, count, label]
  exact bytes_eq 22 h

theorem triggerPayload_readTrigger (h : p.length = 28) : triggerPayload (readTrigger p) = p := by
  have source := be_numAt (p := p) 4 2 (by omega)
  have delay := be_numAt (p := p) 7 4 (by omega)
  have width := be_numAt (p := p) 15 2 (by omega)
  have period := be_numAt (p := p) 17 4 (by omega)
  have count := be_numAt (p := p) 21 2 (by omega)
  have label := be_numAt (p := p) 26 2 (by omega)
  simp only [triggerPayload, readTrigger, templatePayload, readTemplate]
  rw [source, delay, width, period, count, label]
  exact bytes_eq 28 h

theorem windowPayload_read (h : p.length = 6) : windowPayload (byteAt 0 p)
    (BitVec.ofNat 16 (numAt 1 2 p)) (BitVec.ofNat 16 (numAt 3 2 p)) (byteAt 5 p) = p := by
  have low := be_numAt (p := p) 1 2 (by omega)
  have high := be_numAt (p := p) 3 2 (by omega)
  rw [windowPayload, low, high]
  exact bytes_eq 6 h

/-- The kinds of host frames. -/
theorem kind_of_lengthOf {n : Nat} (h : lengthOf k = some n) : k = kindAck ∨ k ∈ commandKinds := by
  by_contra hn
  simp only [commandKinds, List.mem_cons, List.not_mem_nil, or_false, not_or] at hn
  simp [lengthOf, hn] at h

section Carried

variable {gatePin inPin : Level} {go : Extent} {n : Nat}

/-- The command read from a payload of plain bytes carries those bytes. -/
theorem carried_of_bytes (n : Nat) (hn : lengthOf k = some n) (h : lengthOf k = some p.length)
    (hc : commandFields gatePin inPin go k p = some i)
    (hf : frameOf i = some (k, (List.range n).map fun j => byteAt (0 + j) p)) :
    ∃ i, commandFields gatePin inPin go k p = some i ∧ frameOf i = some (k, p) :=
  ⟨i, hc, by rw [hf, bytes_eq n (Option.some.inj (h.symm.trans hn))]⟩

/-- The command read from a payload with numbers in it carries that payload. -/
theorem carried_of_payload {q : Payload} (n : Nat) (hn : lengthOf k = some n)
    (h : lengthOf k = some p.length) (hc : commandFields gatePin inPin go k p = some i)
    (hf : frameOf i = some (k, q)) (hq : p.length = n → q = p) :
    ∃ i, commandFields gatePin inPin go k p = some i ∧ frameOf i = some (k, p) :=
  ⟨i, hc, by rw [hf, hq (Option.some.inj (h.symm.trans hn))]⟩

end Carried

/-- A payload of its kind's length is read as a command that it carries. -/
theorem commandFields_carried (gatePin inPin : Level) (go : Extent) (h : lengthOf k = some p.length) :
    ∃ i, commandFields gatePin inPin go k p = some i ∧ frameOf i = some (k, p) := by
  have kind := kind_of_lengthOf h
  simp only [commandKinds, List.mem_cons, List.not_mem_nil, or_false] at kind
  rcases kind with rfl | rfl | rfl | rfl | rfl | rfl | rfl | rfl | rfl | rfl | rfl | rfl | rfl | rfl | rfl | rfl | rfl | rfl | rfl | rfl | rfl | rfl | rfl | rfl | rfl | rfl | rfl | rfl | rfl | rfl
  · exact carried_of_bytes 1 rfl h rfl rfl
  · exact carried_of_bytes 0 rfl h rfl rfl
  · exact carried_of_bytes 0 rfl h rfl rfl
  · exact carried_of_bytes 1 rfl h rfl rfl
  · exact carried_of_bytes 2 rfl h rfl rfl
  · exact carried_of_payload 6 rfl h rfl rfl fun hl =>
      (be_numAt 0 6 (by omega)).trans (bytes_eq 6 hl)
  · exact carried_of_bytes 0 rfl h rfl rfl
  · exact carried_of_bytes 0 rfl h rfl rfl
  · exact carried_of_bytes 2 rfl h rfl rfl
  · exact carried_of_bytes 0 rfl h rfl rfl
  · exact carried_of_payload 22 rfl h rfl rfl schedulePayload_readSchedule
  · exact carried_of_bytes 2 rfl h rfl rfl
  · exact carried_of_bytes 2 rfl h rfl rfl
  · exact carried_of_bytes 1 rfl h rfl rfl
  · exact carried_of_payload 4 rfl h rfl rfl fun hl =>
      (congrArg ([byteAt 0 p, byteAt 1 p] ++ ·) (be_numAt 2 2 (by omega))).trans (bytes_eq 4 hl)
  · exact carried_of_bytes 3 rfl h rfl rfl
  · exact carried_of_bytes 2 rfl h rfl rfl
  · exact carried_of_bytes 0 rfl h rfl rfl
  · exact carried_of_bytes 6 rfl h rfl rfl
  · exact carried_of_bytes 1 rfl h rfl rfl
  · exact carried_of_bytes 1 rfl h rfl rfl
  · exact carried_of_bytes 2 rfl h rfl rfl
  · exact carried_of_payload 6 rfl h rfl rfl windowPayload_read
  · exact carried_of_payload 28 rfl h rfl rfl triggerPayload_readTrigger
  · exact carried_of_bytes 2 rfl h rfl rfl
  · exact carried_of_bytes 2 rfl h rfl rfl
  · exact carried_of_bytes 1 rfl h rfl rfl
  · exact carried_of_payload 6 rfl h rfl rfl fun hl =>
      (congrArg ([byteAt 0 p, byteAt 1 p, byteAt 2 p] ++ · ++ [byteAt 5 p])
        (be_numAt 3 2 (by omega))).trans (bytes_eq 6 hl)
  · exact carried_of_bytes 1 rfl h rfl rfl
  · exact carried_of_bytes 1 rfl h rfl rfl

/-- Settles O2: the reading of every kind's layout, and the writing of what is read. -/
theorem commandFramesAndTheirReadingAgree : Obligations.CommandFramesAndTheirReadingAgree := by
  refine ⟨fun i k p h => readAs_of_frameOf h, fun gatePin inPin go k p i h => ?_⟩
  unfold commandOf at h
  split at h
  · rename_i hl
    obtain ⟨j, hj, carried⟩ := commandFields_carried gatePin inPin go hl
    obtain rfl := Option.some.inj (hj.symm.trans h)
    exact carried
  · exact nomatch h

end Sys2Proof.Machine
end
